-- ==== Sys2Proof/Word.lean ====
section
/-! DEFINITION. The block's value types and their widths: 00_scope.md R11. -/

namespace Sys2Proof

/-- A command word, 32 bits (30_encoding.md R100). -/
abbrev CommandWord := BitVec 32

/-- One NUM: a binary64 datum, held as its 64-bit pattern (00_scope.md R9, 20_memory.md R79). -/
abbrev Binary64 := BitVec 64

/-- An input element of IN_BITS, 8 bits (10_state.md R40). -/
abbrev Element := BitVec 8

/-- A bit, a value in 0, 1 (00_scope.md R12). -/
abbrev Bit := Bool

/-- A bit pattern, first element leftmost and most significant (00_scope.md R10). -/
abbrev Pattern := List Bit

/-- A row: a sequence of NUM components (10_state.md R42, R43). -/
abbrev Row := List Binary64

end Sys2Proof
end

