-- ==== Sys2Proof/Syntax.lean ====
section
/-! DEFINITION. The commands of the block, one constructor per row of the opcode map (30_encoding.md R109),
and the operand types of their fields. -/

namespace Sys2Proof

/-- The modulation schemes (00_scope.md R8, R13). The register value NONE is `none : Option Scheme`. -/
inductive Scheme where
  | fsk8
  | qam16
  | psk8
  deriving DecidableEq, Repr

/-- SETAMP's SEL field: which amplitude register is written (30_encoding.md R103). -/
inductive AmpSel where
  | tx
  | rx
  deriving DecidableEq, Repr

/-- A command with its fields (30_encoding.md R102 to R109). -/
inductive Instr where
  /-- NOP (40_control.md R130). -/
  | nop
  /-- SETCFG with SCH; `none` is code 3, NONE, a legal encoding (40_control.md R132). -/
  | setcfg (sch : Option Scheme)
  /-- SETAMP with SEL (40_control.md R133). -/
  | setamp (sel : AmpSel)
  /-- SETBPC with V (40_control.md R134). -/
  | setbpc (v : Bool)
  /-- SETPAD with V and the number PADV (40_control.md R135). -/
  | setpad (v : Bool) (padv : Nat)
  /-- FRAME (42_modulator.md R201). -/
  | frame
  /-- MOD (42_modulator.md R204). -/
  | mod
  /-- DET (43_detector.md R246). -/
  | det
  /-- LOOP (42_modulator.md R206). -/
  | loop
  /-- CLRERR (40_control.md R136). -/
  | clrerr
  /-- FLUSH with CI, CF and CR (40_control.md R137). -/
  | flush (ci cf cr : Bool)
  deriving DecidableEq, Repr

end Sys2Proof
end

