-- ==== Sys2Proof/WellFormed.lean ====
section
/-! DEFINITION. Which commands have an encoding. Every field's type carries exactly the field's values but SETPAD's
PADV, a number that must fit its two bits c[26:25] (30_encoding.md R105, R111). -/

namespace Sys2Proof

/-- The number fields of a command fit their bits in the command word. -/
def wellFormed : Instr → Bool
  | .setpad _ padv => decide (padv < 4)
  | .nop => true
  | .setcfg _ => true
  | .setamp _ => true
  | .setbpc _ => true
  | .frame => true
  | .mod => true
  | .det => true
  | .loop => true
  | .clrerr => true
  | .flush _ _ _ => true

end Sys2Proof
end

