-- ==== Sys2Proof/Decode.lean ====
section
/-! DEFINITION. The decoder of 30_encoding.md R108, total on all 2^32 words, its encoder (R100 to R107, R112), and the
opcode map of R109 as rows of match and mask. -/

namespace Sys2Proof

/-- Why a word decodes to Illegal (60_exceptions.md R282, 30_encoding.md R110). Every reason raises the same
IllegalCommandError when the word is issued. -/
inductive Illegal where
  /-- OPC is 0xB to 0xF. -/
  | reservedOpcode
  /-- The RSV field c[23:0] is not 0. -/
  | reservedField
  /-- An ARG bit outside the command's fields is not 0. -/
  | undefinedArgument
  deriving DecidableEq, Repr

/-- The field OPC, c[31:28] (30_encoding.md R100). -/
def opcField (c : CommandWord) : BitVec 4 := c.extractLsb' 28 4

/-- The field ARG, c[27:24] (30_encoding.md R100). -/
def argField (c : CommandWord) : BitVec 4 := c.extractLsb' 24 4

/-- The field RSV, c[23:0] (30_encoding.md R100). -/
def rsvField (c : CommandWord) : BitVec 24 := c.extractLsb' 0 24

/-- The 2-bit code of a value of SCHEME (00_scope.md R8, 10_state.md R33). -/
def schemeCode : Option Scheme → BitVec 2
  | some .fsk8 => 0#2
  | some .qam16 => 1#2
  | some .psk8 => 2#2
  | none => 3#2

/-- The value of SCHEME that a 2-bit code names (00_scope.md R8). -/
def schemeOfCode (b : BitVec 2) : Option Scheme :=
  match b.toNat with
  | 0 => some .fsk8
  | 1 => some .qam16
  | 2 => some .psk8
  | _ => none

/-- The SEL bit of SETAMP (30_encoding.md R103). -/
def ampSelOfBit (b : Bool) : AmpSel := if b then .rx else .tx

/-- The bit of a selector (30_encoding.md R103). -/
def ampSelBit : AmpSel → Bool
  | .tx => false
  | .rx => true

/-- The command `i`, unless an ARG bit the command does not define is set. -/
def withClearBits (undefinedBits : Bool) (i : Instr) : Except Illegal Instr :=
  if undefinedBits then .error .undefinedArgument else .ok i

/-- The command an opcode and an ARG field select, RSV being 0 (30_encoding.md R108). -/
def decodeFields (opc arg : BitVec 4) : Except Illegal Instr :=
  match opc.toNat with
  | 0x0 => withClearBits (arg != 0#4) .nop
  | 0x1 => withClearBits (arg.getLsbD 3 || arg.getLsbD 2) (.setcfg (schemeOfCode (arg.extractLsb' 0 2)))
  | 0x2 => withClearBits (arg.extractLsb' 1 3 != 0#3) (.setamp (ampSelOfBit (arg.getLsbD 0)))
  | 0x3 => withClearBits (arg.extractLsb' 1 3 != 0#3) (.setbpc (arg.getLsbD 0))
  | 0x4 => withClearBits (arg.getLsbD 3) (.setpad (arg.getLsbD 0) (arg.extractLsb' 1 2).toNat)
  | 0x5 => withClearBits (arg != 0#4) .frame
  | 0x6 => withClearBits (arg != 0#4) .mod
  | 0x7 => withClearBits (arg != 0#4) .det
  | 0x8 => withClearBits (arg != 0#4) .loop
  | 0x9 => withClearBits (arg != 0#4) .clrerr
  | 0xA => withClearBits (arg.getLsbD 3) (.flush (arg.getLsbD 0) (arg.getLsbD 1) (arg.getLsbD 2))
  | _ => .error .reservedOpcode

/-- The decoder (30_encoding.md R108). -/
def decode (c : CommandWord) : Except Illegal Instr :=
  if rsvField c ≠ 0#24 then .error .reservedField else decodeFields (opcField c) (argField c)

/-- A command word from its OPC and ARG numbers, RSV being 0 (30_encoding.md R100). -/
def commandWord (opc arg : Nat) : CommandWord := BitVec.ofNat 32 (opc * 2 ^ 28 + arg * 2 ^ 24)

/-- The OPC number of a command (30_encoding.md R109). -/
def opcOf : Instr → Nat
  | .nop => 0x0
  | .setcfg _ => 0x1
  | .setamp _ => 0x2
  | .setbpc _ => 0x3
  | .setpad _ _ => 0x4
  | .frame => 0x5
  | .mod => 0x6
  | .det => 0x7
  | .loop => 0x8
  | .clrerr => 0x9
  | .flush _ _ _ => 0xA

/-- The ARG number of a command (30_encoding.md R102 to R107). -/
def argOf : Instr → Nat
  | .nop => 0
  | .setcfg sch => (schemeCode sch).toNat
  | .setamp sel => (ampSelBit sel).toNat
  | .setbpc v => v.toNat
  | .setpad v padv => padv * 2 + v.toNat
  | .frame => 0
  | .mod => 0
  | .det => 0
  | .loop => 0
  | .clrerr => 0
  | .flush ci cf cr => cr.toNat * 4 + cf.toNat * 2 + ci.toNat

/-- The word of a well-formed command (30_encoding.md R100, R112). -/
def encode (i : Instr) : CommandWord := commandWord (opcOf i) (argOf i)

/-- One row of the opcode map: a word is of the row when its bits under `mask` are those of `pattern`. -/
structure OpcodeRow where
  mnemonic : String
  pattern : CommandWord
  mask : CommandWord
  deriving DecidableEq, Repr

/-- The opcode map (30_encoding.md R109). -/
def opcodeMap : List OpcodeRow :=
  [ { mnemonic := "NOP", pattern := 0x00000000#32, mask := 0xFFFFFFFF#32 },
    { mnemonic := "SETCFG", pattern := 0x10000000#32, mask := 0xFCFFFFFF#32 },
    { mnemonic := "SETAMP", pattern := 0x20000000#32, mask := 0xFEFFFFFF#32 },
    { mnemonic := "SETBPC", pattern := 0x30000000#32, mask := 0xFEFFFFFF#32 },
    { mnemonic := "SETPAD", pattern := 0x40000000#32, mask := 0xF8FFFFFF#32 },
    { mnemonic := "FRAME", pattern := 0x50000000#32, mask := 0xFFFFFFFF#32 },
    { mnemonic := "MOD", pattern := 0x60000000#32, mask := 0xFFFFFFFF#32 },
    { mnemonic := "DET", pattern := 0x70000000#32, mask := 0xFFFFFFFF#32 },
    { mnemonic := "LOOP", pattern := 0x80000000#32, mask := 0xFFFFFFFF#32 },
    { mnemonic := "CLRERR", pattern := 0x90000000#32, mask := 0xFFFFFFFF#32 },
    { mnemonic := "FLUSH", pattern := 0xA0000000#32, mask := 0xF8FFFFFF#32 } ]

/-- The mnemonic of a command, as the opcode map spells it. -/
def mnemonicOf : Instr → String
  | .nop => "NOP"
  | .setcfg _ => "SETCFG"
  | .setamp _ => "SETAMP"
  | .setbpc _ => "SETBPC"
  | .setpad _ _ => "SETPAD"
  | .frame => "FRAME"
  | .mod => "MOD"
  | .det => "DET"
  | .loop => "LOOP"
  | .clrerr => "CLRERR"
  | .flush _ _ _ => "FLUSH"

/-- The word `c` is of the row `r`. -/
def OpcodeRow.covers (r : OpcodeRow) (c : CommandWord) : Bool := c &&& r.mask == r.pattern

/-- The command word whose low `nbits` bits are those of `w`, every bit above them 0. -/
def tableWord (nbits w : Nat) : CommandWord := BitVec.ofNat 32 (w % 2 ^ nbits)

/-- What the decoder reads from the opcode table's `nbits` bits `w`: a command is one 32-bit word and no second word
follows (30_encoding.md R100, R101). -/
def decodeTableWord (nbits w : Nat) : Option Instr :=
  match decode (tableWord nbits w) with
  | .ok i => some i
  | .error _ => none

end Sys2Proof
end

