-- ==== Sys2Proof/Config.lean ====
section
/-! DEFINITION. What a realisation of the block fixes (00_scope.md R9) and the one free value of the model.

The parameters are a record of plain data. State holds it as a constant (notes/assumptions/1.md), so that a statement
about every state is a statement about every realisation. -/

namespace Sys2Proof

/-- One row of QAM16_TABLE: a 4-bit pattern and the point (I, Q) (41_alphabet.md R170). -/
structure Qam16Row where
  bits : Pattern
  i : Int
  q : Int
  deriving DecidableEq, Repr

/-- The parameters of a realisation that the spec leaves open and that a step depends on (00_scope.md R9).
A capacity `none` is unbounded, as in the reference model (20_memory.md R84). -/
structure Params where
  /-- QAM16_TABLE (41_alphabet.md R170). -/
  qam16Table : List Qam16Row
  /-- MAX_IN_BITS, in elements. -/
  maxInBits : Option Nat
  /-- MAX_RX_ROWS, in rows. -/
  maxRxRows : Option Nat
  deriving DecidableEq, Repr

/-- The binary64 operations whose NaN results are left open. -/
inductive NumOp where
  | add
  | sub
  | mul
  deriving DecidableEq, Repr

/-- FREE VALUE (notes/assumptions/6.md, DESIGN CHOICE, safe): the sign and the low 51 fraction bits of the NaN that an
operation on the given operands answers. The spec names binary64 and states no NaN result; no command computes one
(43_detector.md R243). -/
opaque Config.freeNan : NumOp → Binary64 → Binary64 → BitVec 52

end Sys2Proof
end

