-- ==== Sys2Proof/Machine/Num.lean ====
section
/-! DEFINITION. NUM arithmetic: IEEE 754 binary64 on 64-bit patterns, round to nearest, ties to even, no fused
multiply-add (00_scope.md R9, R10; 92_eei_decisions.md D4).

Every finite binary64 is an integer multiple of 2^-1074, so an operation is computed exactly on integers and rounded
once, at the end. The magnitude of a number is its pattern without the sign bit; magnitudes are ordered as the numbers
they stand for, with infinity at `infMag` and the NaNs above it. -/

namespace Sys2Proof.Machine

/-- The sign, DATA[63] of 20_memory.md R79. -/
def numSign (x : Binary64) : Bool := x.msb

/-- The biased exponent and the fraction together, bits 62 to 0 (20_memory.md R79). -/
def numMag (x : Binary64) : Nat := x.toNat % 2 ^ 63

/-- The magnitude of infinity: exponent 0x7FF, fraction 0. -/
def infMag : Nat := 0x7FF * 2 ^ 52

/-- `x` is a NaN. -/
def numIsNan (x : Binary64) : Bool := decide (infMag < numMag x)

/-- `x` is an infinity. -/
def numIsInf (x : Binary64) : Bool := numMag x == infMag

/-- isFinite of 00_scope.md R10: neither an infinity nor a NaN. -/
def numIsFinite (x : Binary64) : Bool := decide (numMag x < infMag)

/-- The number of a sign and a magnitude. -/
def numOfParts (neg : Bool) (mag : Nat) : Binary64 := BitVec.ofNat 64 (neg.toNat * 2 ^ 63 + mag)

/-- The absolute value of a finite number, in units of 2^-1074. -/
def magUnits (mag : Nat) : Nat :=
  if mag / 2 ^ 52 = 0 then mag else (2 ^ 52 + mag % 2 ^ 52) * 2 ^ (mag / 2 ^ 52 - 1)

/-- The value of a finite number, in units of 2^-1074. -/
def numUnits (x : Binary64) : Int :=
  if numSign x then -(magUnits (numMag x) : Int) else (magUnits (numMag x) : Int)

/-- n / 2^sh rounded to the nearest integer, ties to even. -/
def roundShift (n sh : Nat) : Nat :=
  let q := n / 2 ^ sh
  let r := n % 2 ^ sh
  if 2 ^ sh < 2 * r || (2 * r == 2 ^ sh && q % 2 == 1) then q + 1 else q

/-- The magnitude of the binary64 nearest to n units of 2^-(1074+k), ties to even, infinity on overflow: keep the
53 leading bits, but never a bit below 2^-1074. A carry out of the kept bits runs into the exponent field. -/
def roundUnits (n k : Nat) : Nat :=
  let sh := max k (n.log2 - 52)
  min ((sh - k) * 2 ^ 52 + roundShift n sh) infMag

/-- A NaN result: exponent 0x7FF and a quiet bit, the rest free (DESIGN CHOICE, notes/assumptions/6.md). -/
def freeNanOf (op : NumOp) (x y : Binary64) : Binary64 :=
  let free := (Config.freeNan op x y).toNat
  numOfParts (decide (2 ^ 51 ≤ free)) (infMag + 2 ^ 51 + free % 2 ^ 51)

/-- The sum of two finite numbers. An exact zero sum is +0.0 unless both operands are negative. -/
def addFinite (x y : Binary64) : Binary64 :=
  let s := numUnits x + numUnits y
  if s = 0 then numOfParts (numSign x && numSign y) 0
  else numOfParts (decide (s < 0)) (roundUnits s.natAbs 0)

/-- NUM addition, the ⊕ of 00_scope.md R10. Its NaN bits are free (DESIGN CHOICE, notes/assumptions/6.md). -/
def numAdd (x y : Binary64) : Binary64 :=
  if numIsNan x || numIsNan y then freeNanOf .add x y
  else if numIsInf x then
    if numIsInf y && (numSign x != numSign y) then freeNanOf .add x y else x
  else if numIsInf y then y
  else addFinite x y

/-- The number with the opposite sign. -/
def numNeg (x : Binary64) : Binary64 := numOfParts (!numSign x) (numMag x)

/-- A difference that is a NaN: an operand is a NaN, or the operands are infinities of one sign. -/
def subIsNan (x y : Binary64) : Bool :=
  numIsNan x || numIsNan y || (numIsInf x && numIsInf y && numSign x == numSign y)

/-- NUM subtraction, the ⊖ of 00_scope.md R10: where no NaN results, the sum with the second operand of the other sign.
The spec is silent on the bits of a NaN difference; they are a free value of ⊖ itself, with no relation to the NaN that
⊕ answers (DESIGN CHOICE, notes/assumptions/6.md). -/
def numSub (x y : Binary64) : Binary64 := if subIsNan x y then freeNanOf .sub x y else numAdd x (numNeg y)

/-- NUM multiplication, the ⊗ of 00_scope.md R10. Its NaN bits are free (DESIGN CHOICE, notes/assumptions/6.md). -/
def numMul (x y : Binary64) : Binary64 :=
  let neg := numSign x != numSign y
  if numIsNan x || numIsNan y then freeNanOf .mul x y
  else if numIsInf x || numIsInf y then
    if numMag x == 0 || numMag y == 0 then freeNanOf .mul x y else numOfParts neg infMag
  else numOfParts neg (roundUnits (magUnits (numMag x) * magUnits (numMag y)) 1074)

/-- The place of a number that is no NaN in the order of the numbers; the two zeros share one place. -/
def numKey (x : Binary64) : Int := if numSign x then -(numMag x : Int) else (numMag x : Int)

/-- The ordered less-than of 00_scope.md R10: false when either operand is NaN. -/
def numLt (x y : Binary64) : Bool := !numIsNan x && !numIsNan y && decide (numKey x < numKey y)

/-- The number nearest to an integer (41_alphabet.md R165, R171: exact for every point coordinate). -/
def numOfInt (z : Int) : Binary64 := numOfParts (decide (z < 0)) (roundUnits (z.natAbs * 2 ^ 1074) 0)

/-- +0.0. -/
def numZero : Binary64 := 0#64

/-- 1.0, the default amplitude (00_scope.md R9). -/
def numOne : Binary64 := 0x3FF0000000000000#64

end Sys2Proof.Machine
end

