-- ==== Sys2Proof/Machine/Alphabet.lean ====
section
/-! DEFINITION. The alphabet ROM (10_state.md R46): the three symbol alphabets of 41_alphabet.md. -/

namespace Sys2Proof.Machine

/-- A constellation point (10_state.md R44): a frequency in hertz for FSK8, an (I, Q) pair for QAM16 and PSK8. -/
inductive Point where
  | freq (f : Binary64)
  | iq (i q : Binary64)
  deriving DecidableEq, Repr

/-- An alphabet (41_alphabet.md R160): B, M and the three functions of a scheme. -/
structure Alphabet where
  /-- B, bitsPerSymbol. -/
  b : Nat
  /-- M, constellationSize. -/
  m : Nat
  bitsToIndex : Pattern → Nat
  indexToBits : Nat → Pattern
  indexToPoint : Nat → Point

/-- val(p): the unsigned integer of a pattern, first element most significant (20_memory.md R78). -/
def patVal (p : Pattern) : Nat := p.foldl (fun acc b => 2 * acc + b.toNat) 0

/-- pat_B(n): the B-bit pattern of n, first element most significant (00_scope.md R10). -/
def patOf (b n : Nat) : Pattern := (List.range b).map fun k => n.testBit (b - 1 - k)

/-- The binary-to-Gray transform (41_alphabet.md R161). -/
def gray (n : Nat) : Nat := n ^^^ (n >>> 1)

/-- The XOR-fold loop of 41_alphabet.md R162, on `n` and `s`; the first argument bounds its turns. -/
def grayFold : Nat → Nat → Nat → Nat
  | 0, n, _ => n
  | turns + 1, n, s => if s = 0 then n else grayFold turns (n ^^^ s) (s >>> 1)

/-- The Gray-to-binary transform (41_alphabet.md R162). `s` halves every turn, so `i` turns reach s = 0. -/
def grayInv (i : Nat) : Nat := grayFold i i (i >>> 1)

/-- The FSK8 alphabet (41_alphabet.md R163, R164, R165). -/
def fsk8Alphabet : Alphabet where
  b := 3
  m := 8
  bitsToIndex p := gray (patVal p)
  indexToBits i := patOf 3 (grayInv i)
  indexToPoint i := .freq (numOfInt (1000 + 1000 * (i : Int)))

/-- The permutation table gray8 of 41_alphabet.md R167. -/
def gray8 : List Nat := [0, 1, 3, 2, 6, 7, 5, 4]

/-- The binary64 number nearest to the square root of 2 over 2 (41_alphabet.md R169). -/
def halfRootTwo : Binary64 := 0x3FE6A09E667F3BCD#64

/-- The PSK8 points by index: cos and sin of 2 pi k / 8, each the nearest binary64 number (41_alphabet.md R169;
notes/assumptions/8.md). -/
def psk8Points : List (Binary64 × Binary64) :=
  [ (numOne, numZero), (halfRootTwo, halfRootTwo), (numZero, numOne), (numNeg halfRootTwo, halfRootTwo),
    (numNeg numOne, numZero), (numNeg halfRootTwo, numNeg halfRootTwo), (numZero, numNeg numOne),
    (halfRootTwo, numNeg halfRootTwo) ]

/-- The PSK8 alphabet (41_alphabet.md R167, R168, R169). -/
def psk8Alphabet : Alphabet where
  b := 3
  m := 8
  bitsToIndex p := gray8.getD (patVal p) 0
  indexToBits k := patOf 3 (gray8.idxOf k)
  indexToPoint k := .iq (psk8Points.getD k (numZero, numZero)).1 (psk8Points.getD k (numZero, numZero)).2

/-- What a QAM16 index past the table reads as; no command uses it (notes/assumptions/11.md). -/
def absentQam16Row : Qam16Row := { bits := [false, false, false, false], i := 0, q := 0 }

/-- The QAM16 alphabet of a table (41_alphabet.md R171). -/
def qam16Alphabet (table : List Qam16Row) : Alphabet where
  b := 4
  m := 16
  bitsToIndex p := table.findIdx fun row => row.bits == p
  indexToBits r := (table.getD r absentQam16Row).bits
  indexToPoint r := .iq (numOfInt (table.getD r absentQam16Row).i) (numOfInt (table.getD r absentQam16Row).q)

/-- The level map m of the default table: 00 to +3, 01 to -3, 11 to -1, 10 to +1 (41_alphabet.md R172). -/
def qam16Level : Pattern → Int
  | [false, false] => 3
  | [false, true] => -3
  | [true, true] => -1
  | _ => 1

/-- Row r of the default QAM16_TABLE: the pattern of r and the levels of its two halves (41_alphabet.md R172). -/
def qam16DefaultRow (r : Nat) : Qam16Row :=
  { bits := patOf 4 r, i := qam16Level ((patOf 4 r).take 2), q := qam16Level ((patOf 4 r).drop 2) }

/-- The default QAM16_TABLE, the spec's own and not the source's (41_alphabet.md R172; notes/assumptions/12.md). -/
def qam16DefaultTable : List Qam16Row := (List.range 16).map qam16DefaultRow

/-- How many bits differ between two patterns of one length. -/
def hamming (p q : Pattern) : Nat := (List.zipWith (fun a b => (a != b).toNat) p q).sum

/-- The levels a QAM16 coordinate may take (41_alphabet.md R170, constraint 2). -/
def qam16Levels : List Int := [-3, -1, 1, 3]

/-- Two points differ by 2 in exactly one coordinate (41_alphabet.md R170, constraint 4). -/
def qam16Neighbours (a b : Qam16Row) : Bool :=
  (((a.i - b.i).natAbs == 2) && (a.q == b.q)) || ((a.i == b.i) && ((a.q - b.q).natAbs == 2))

/-- Constraint 1 of 41_alphabet.md R170: sixteen rows whose patterns are the 4-bit patterns, each once. -/
def qam16PatternsOk (table : List Qam16Row) : Bool :=
  table.length == 16 && table.all (fun row => row.bits.length == 4) && decide (table.map (·.bits)).Nodup

/-- Constraint 2 of 41_alphabet.md R170: sixteen distinct points with coordinates in the level set. -/
def qam16PointsOk (table : List Qam16Row) : Bool :=
  table.all (fun row => qam16Levels.contains row.i && qam16Levels.contains row.q) &&
    decide (table.map fun row => (row.i, row.q)).Nodup

/-- Constraint 3 of 41_alphabet.md R170: the pattern 0100 has the point (-3, +3). -/
def qam16SourceRowOk (table : List Qam16Row) : Bool :=
  table.all fun row => row.bits != [false, true, false, false] || (row.i == -3 && row.q == 3)

/-- Constraint 4 of 41_alphabet.md R170: neighbouring points have patterns that differ in exactly one bit. -/
def qam16GrayOk (table : List Qam16Row) : Bool :=
  table.all fun a => table.all fun b => !qam16Neighbours a b || hamming a.bits b.bits == 1

/-- A QAM16_TABLE that meets the four constraints of 41_alphabet.md R170. -/
def qam16TableOk (table : List Qam16Row) : Bool :=
  qam16PatternsOk table && qam16PointsOk table && qam16SourceRowOk table && qam16GrayOk table

/-- A capacity is below 2^40 where it is bounded (20_memory.md R76). -/
def capacityOk : Option Nat → Bool
  | none => true
  | some n => decide (n < 2 ^ 40)

/-- The parameters meet what the spec asks of every realisation (41_alphabet.md R170, 20_memory.md R76). -/
def paramsOk (p : Params) : Bool :=
  qam16TableOk p.qam16Table && capacityOk p.maxInBits && capacityOk p.maxRxRows

/-- The parameters of the reference model (00_scope.md R9, 20_memory.md R84, 41_alphabet.md R172). -/
def referenceParams : Params :=
  { qam16Table := qam16DefaultTable, maxInBits := none, maxRxRows := none }

/-- alphabet(SCHEME) of 41_alphabet.md R160; NONE has no alphabet and is no argument here. -/
def alphabet (p : Params) : Scheme → Alphabet
  | .fsk8 => fsk8Alphabet
  | .qam16 => qam16Alphabet p.qam16Table
  | .psk8 => psk8Alphabet

end Sys2Proof.Machine
end

