-- ==== Sys2Proof/Machine/State.lean ====
section
/-! DEFINITION. The state of the block (10_state.md R49), its constant parameters, the host's side of the interface, and
the reasons a step stops. -/

namespace Sys2Proof.Machine

/-- TX_META (10_state.md R42). The scheme stands as its 2-bit code (00_scope.md R8). -/
structure TxMeta where
  metaValid : Bool
  scheme : BitVec 2
  m : Nat
  padValid : Bool
  pad : BitVec 2
  bpcValid : Bool
  bpc : BitVec 32
  numSymbols : Nat
  deriving DecidableEq, Repr

/-- The names a READ may carry: the state of 10_state.md R49, and STATUS as one word (20_memory.md R77). -/
inductive StateName where
  | scheme
  | ampTx
  | ampRx
  | pad
  | padValid
  | bpc
  | bpcValid
  | data
  | status
  | statusCode
  | statusErrSeen
  | inBits
  | framed
  | txOut
  | txPts
  | txMeta
  | rxIn
  | rxIdx
  | rxSymbits
  | rxPts
  | outBits
  deriving DecidableEq, Repr

/-- A value a READ returns, whole, with its width (20_memory.md R77, R81). -/
inductive ReadValue where
  | flag (v : Bool)
  | field2 (v : BitVec 2)
  | field4 (v : BitVec 4)
  | word32 (v : BitVec 32)
  | word64 (v : BitVec 64)
  | num (v : Binary64)
  | elements (v : List Element)
  | bits (v : List Bit)
  | rows (v : List Row)
  | points (v : List Point)
  | frameInfo (v : TxMeta)
  | indices (v : List Nat)
  | patterns (v : List Pattern)
  deriving DecidableEq, Repr

/-- The five host transactions (20_memory.md R71). -/
inductive Transaction where
  | wdata (v : BitVec 64)
  | pushbit (v : Element)
  | pushrow (row : Row)
  | issue (c : CommandWord)
  | read (x : StateName)
  deriving DecidableEq, Repr

/-- What reaches the block from outside: a host transaction, or reset, which is none (70_reset_and_hazards.md R311). -/
inductive Event where
  | transaction (t : Transaction)
  | reset
  deriving DecidableEq, Repr

/-- The state: the tuple of 10_state.md R49 in its order, then the constant parameters, then the host's side. -/
structure State where
  /-- SCHEME, 2 bits; `none` is code 3, NONE (R33). -/
  scheme : Option Scheme
  /-- AMP_TX (R34). -/
  ampTx : Binary64
  /-- AMP_RX (R35). -/
  ampRx : Binary64
  /-- PAD (R36). -/
  pad : BitVec 2
  /-- PAD_VALID (R36). -/
  padValid : Bool
  /-- BPC (R37). -/
  bpc : BitVec 32
  /-- BPC_VALID (R37). -/
  bpcValid : Bool
  /-- DATA (R38). -/
  data : BitVec 64
  /-- STATUS.CODE (R39). -/
  code : BitVec 4
  /-- STATUS.ERRSEEN (R39). -/
  errSeen : Bool
  /-- IN_BITS (R40). -/
  inBits : List Element
  /-- FRAMED (R41). -/
  framed : List Bit
  /-- TX_OUT (R42). -/
  txOut : List Row
  /-- TX_PTS (R42). -/
  txPts : List Point
  /-- TX_META (R42). -/
  txMeta : TxMeta
  /-- RX_IN (R43). -/
  rxIn : List Row
  /-- RX_IDX (R45). -/
  rxIdx : List Nat
  /-- RX_SYMBITS (R45). -/
  rxSymbits : List Pattern
  /-- RX_PTS (R45). -/
  rxPts : List Point
  /-- OUT_BITS (R45). -/
  outBits : List Bit
  /-- The realisation's parameters, the QAM16 part of the alphabet ROM among them; constant (R46, 00_scope.md R9;
  notes/assumptions/1.md). -/
  params : Params
  /-- The model's own: the events still to reach the block, oldest first (20_memory.md R85; notes/assumptions/2.md). -/
  hostQueue : List Event
  /-- The model's own: what the latest READ returned to the host (20_memory.md R77; notes/assumptions/4.md). -/
  hostRead : Option ReadValue
  deriving DecidableEq, Repr

/-- Why a step stops with a fault: nothing does. The block reports every error in STATUS and goes on
(60_exceptions.md R286, R290; notes/assumptions/13.md). -/
inductive Fault
  deriving DecidableEq, Repr

/-- Why a step is refused. -/
inductive Refusal where
  /-- Raised by `exec` for an instruction whose meaning is not written; safe, a claim about it becomes unprovable. -/
  | notModelled (mnemonic : String)
  /-- Raised by PUSHBIT into a full IN_BITS, which has no step (20_memory.md R84, 60_exceptions.md R291); safe, the
  spec gives the step no effect. -/
  | inBitsFull
  /-- Raised by PUSHROW into a full RX_IN, and by LOOP where its append would pass MAX_RX_ROWS, neither of which has a
  step (20_memory.md R84, 60_exceptions.md R291); safe, the spec gives the step no effect. -/
  | rxInFull
  deriving DecidableEq, Repr

/-- TX_META with every field 0 (10_state.md R42). -/
def TxMeta.zero : TxMeta :=
  { metaValid := false, scheme := 0#2, m := 0, padValid := false, pad := 0#2, bpcValid := false, bpc := 0#32,
    numSymbols := 0 }

/-- The machine right after reset (10_state.md R49, 70_reset_and_hazards.md R310), with the reference model's
parameters and no event waiting. -/
def State.reset : State :=
  { scheme := none, ampTx := numOne, ampRx := numOne, pad := 0#2, padValid := false, bpc := 0#32, bpcValid := false,
    data := 0#64, code := 0#4, errSeen := false, inBits := [], framed := [], txOut := [], txPts := [],
    txMeta := TxMeta.zero, rxIn := [], rxIdx := [], rxSymbits := [], rxPts := [], outBits := [],
    params := referenceParams, hostQueue := [], hostRead := none }

end Sys2Proof.Machine
end

