-- ==== Sys2Proof/Machine/Flags.lean ====
section
/-! DEFINITION. STATUS, the block's only status state (10_state.md R32, R39): the error codes and the 32-bit word. There
are no condition codes and no arithmetic flags. -/

namespace Sys2Proof.Machine

/-- The errors (60_exceptions.md R280). -/
inductive BlockError where
  | unsupportedScheme
  | invalidChannelParameter
  | malformedBitstream
  | lengthMismatch
  | illegalCommand
  | invalidAmplitude
  | nonFiniteSample
  deriving DecidableEq, Repr

/-- CODE after a command that completes (60_exceptions.md R280). -/
def codeOk : BitVec 4 := 0#4

/-- CODE after an error (60_exceptions.md R280). Code 2 is the channel's; no command raises it (R288). -/
def errorCode : BlockError → BitVec 4
  | .unsupportedScheme => 1#4
  | .invalidChannelParameter => 2#4
  | .malformedBitstream => 3#4
  | .lengthMismatch => 4#4
  | .illegalCommand => 5#4
  | .invalidAmplitude => 6#4
  | .nonFiniteSample => 7#4

/-- STATUS as the host reads it: CODE in [3:0], ERRSEEN in [8], the reserved bits 0 (10_state.md R39). -/
def statusWord (s : State) : BitVec 32 :=
  BitVec.ofNat 32 (s.errSeen.toNat * 2 ^ 8 + s.code.toNat)

end Sys2Proof.Machine
end

