-- ==== Sys2Proof/Machine/Operands.lean ====
section
/-! DEFINITION. The operand forms of the commands (30_encoding.md R111): fields of the word as `Instr` carries them, the
DATA register, the configuration registers, and whole buffers cut into groups. -/

namespace Sys2Proof.Machine

/-- SETAMP's operand: DATA[63:0] as a binary64 pattern (30_encoding.md R103, 20_memory.md R79). -/
def dataAmplitude (s : State) : Binary64 := s.data

/-- SETBPC's operand: DATA[31:0], DATA[63:32] ignored (30_encoding.md R104). -/
def dataTag (s : State) : BitVec 32 := s.data.extractLsb' 0 32

/-- SETPAD's operand PADV as the 2-bit register value (30_encoding.md R105). -/
def padOperand (padv : Nat) : BitVec 2 := BitVec.ofNat 2 padv

/-- An amplitude the registers may hold: finite and greater than +0.0 (10_state.md R34). -/
def amplitudeLegal (a : Binary64) : Bool := numIsFinite a && numLt numZero a

/-- An element of IN_BITS that is 0 or 1 (42_modulator.md R200, check 3). -/
def isBitElement (v : Element) : Bool := v == 0#8 || v == 1#8

/-- An element of IN_BITS read as one bit (42_modulator.md R201). -/
def elementBit (v : Element) : Bit := v != 0#8

/-- chunks(B, xs): consecutive groups of B elements, group k holding elements k*B to k*B+B-1 (00_scope.md R10,
20_memory.md R78). It is used where B divides the length. -/
def chunks (b : Nat) (xs : List Bit) : List Pattern :=
  (List.range (xs.length / b)).map fun k => (xs.drop (k * b)).take b

/-- The value of a named piece of state (20_memory.md R77). -/
def readState (s : State) : StateName → ReadValue
  | .scheme => .field2 (schemeCode s.scheme)
  | .ampTx => .num s.ampTx
  | .ampRx => .num s.ampRx
  | .pad => .field2 s.pad
  | .padValid => .flag s.padValid
  | .bpc => .word32 s.bpc
  | .bpcValid => .flag s.bpcValid
  | .data => .word64 s.data
  | .status => .word32 (statusWord s)
  | .statusCode => .field4 s.code
  | .statusErrSeen => .flag s.errSeen
  | .inBits => .elements s.inBits
  | .framed => .bits s.framed
  | .txOut => .rows s.txOut
  | .txPts => .points s.txPts
  | .txMeta => .frameInfo s.txMeta
  | .rxIn => .rows s.rxIn
  | .rxIdx => .indices s.rxIdx
  | .rxSymbits => .patterns s.rxSymbits
  | .rxPts => .points s.rxPts
  | .outBits => .bits s.outBits

end Sys2Proof.Machine
end

