-- ==== Sys2Proof/Machine/Ops.lean ====
section
/-! DEFINITION. The named operations that the commands share: completing, the error path, entry checks, writing the
buffers within their capacities, and reset. -/

namespace Sys2Proof.Machine

/-- The outcome type of a step of this machine. -/
abbrev Result := Host.Outcome State Fault Refusal

/-- The last effect of a command that completes: CODE 0, ERRSEEN unchanged (40_control.md R131). -/
def complete (s : State) : State := { s with code := codeOk }

/-- The error path, the block's trap mechanism (60_exceptions.md R286): CODE gets the error's code, ERRSEEN gets 1, and
nothing else changes; no return address or faulting value is saved. -/
def raiseError (e : BlockError) (s : State) : State := { s with code := errorCode e, errSeen := true }

/-- What stands beside the error path in place of a return from exception: there is no return instruction, and the host
acknowledges an error by clearing ERRSEEN and CODE (60_exceptions.md R290, 40_control.md R136). -/
def clearErrors (s : State) : State := { s with errSeen := false, code := codeOk }

/-- A command with entry checks: the first failing check takes the error path, before any other state is written;
otherwise the command goes on with what the checks found (60_exceptions.md R286, R289). -/
def afterChecks {α : Type} (checks : Except BlockError α) (s : State) (body : α → Result) : Result :=
  match checks with
  | .error e => .next (raiseError e s)
  | .ok a => body a

/-- The alphabet of the scheme in use, or UnsupportedSchemeError while SCHEME is NONE (41_alphabet.md R160,
60_exceptions.md R281). -/
def currentAlphabet (s : State) : Except BlockError Alphabet :=
  match s.scheme with
  | none => .error .unsupportedScheme
  | some sch => .ok (alphabet s.params sch)

/-- A check that raises `e` when it fails. -/
def require (e : BlockError) (holds : Bool) : Except BlockError Unit :=
  if holds then .ok () else .error e

/-- `n` entries fit a buffer of the given capacity (20_memory.md R84). -/
def fits (capacity : Option Nat) (n : Nat) : Bool :=
  match capacity with
  | none => true
  | some max => decide (n ≤ max)

/-- Append elements to IN_BITS, or refuse where they would pass MAX_IN_BITS (20_memory.md R74, R84). -/
def appendInBits (vs : List Element) (s : State) : Result :=
  if fits s.params.maxInBits (s.inBits.length + vs.length) then .next { s with inBits := s.inBits ++ vs }
  else .refused .inBitsFull

/-- Append rows to RX_IN, or refuse where they would pass MAX_RX_ROWS (20_memory.md R75, R84; 42_modulator.md R206). -/
def appendRxIn (rows : List Row) (s : State) : Result :=
  if fits s.params.maxRxRows (s.rxIn.length + rows.length) then .next { s with rxIn := s.rxIn ++ rows }
  else .refused .rxInFull

/-- The same outcome, with a next state completed. -/
def completing : Result → Result
  | .next s => .next (complete s)
  | .fault f => .fault f
  | .refused r => .refused r

/-- Reset: every piece of the block's state at its reset value; the alphabet ROM and the other parameters keep their
constant values, and the host's side is not the block's (70_reset_and_hazards.md R310, R311; notes/assumptions/5.md). -/
def resetBlock (s : State) : State :=
  { State.reset with params := s.params, hostQueue := s.hostQueue, hostRead := s.hostRead }

end Sys2Proof.Machine
end

