-- ==== Sys2Proof/Machine/Control.lean ====
section
/-! DEFINITION. The control commands (40_control.md R130 to R137). -/

namespace Sys2Proof.Machine

/-- NOP (40_control.md R130). -/
def execNop (s : State) : Result := .next (complete s)

/-- SETCFG (40_control.md R132). -/
def execSetcfg (sch : Option Scheme) (s : State) : Result :=
  afterChecks (require .unsupportedScheme sch.isSome) s fun _ => .next (complete { s with scheme := sch })

/-- The amplitude register that SEL names, written (40_control.md R133). -/
def writeAmplitude (sel : AmpSel) (a : Binary64) (s : State) : State :=
  match sel with
  | .tx => { s with ampTx := a }
  | .rx => { s with ampRx := a }

/-- SETAMP (40_control.md R133). -/
def execSetamp (sel : AmpSel) (s : State) : Result :=
  afterChecks (require .invalidAmplitude (amplitudeLegal (dataAmplitude s))) s fun _ =>
    .next (complete (writeAmplitude sel (dataAmplitude s) s))

/-- SETBPC (40_control.md R134). -/
def execSetbpc (v : Bool) (s : State) : Result :=
  .next (complete { s with bpc := if v then dataTag s else 0#32, bpcValid := v })

/-- SETPAD (40_control.md R135). -/
def execSetpad (v : Bool) (padv : Nat) (s : State) : Result :=
  .next (complete { s with pad := padOperand padv, padValid := v })

/-- CLRERR (40_control.md R136). -/
def execClrerr (s : State) : Result := .next (clearErrors s)

/-- FLUSH (40_control.md R137). -/
def execFlush (ci cf cr : Bool) (s : State) : Result :=
  .next (complete { s with
    inBits := if ci then [] else s.inBits
    framed := if cf then [] else s.framed
    rxIn := if cr then [] else s.rxIn })

end Sys2Proof.Machine
end

