-- ==== Sys2Proof/Machine/Modulator.lean ====
section
/-! DEFINITION. The transmit datapath: FRAME, MOD and LOOP (42_modulator.md R200 to R209). -/

namespace Sys2Proof.Machine

/-- The entry checks of FRAME, in order (42_modulator.md R200). -/
def frameChecks (s : State) : Except BlockError Alphabet := do
  let a ← currentAlphabet s
  require .malformedBitstream (!s.inBits.isEmpty)
  require .malformedBitstream (s.inBits.all isBitElement)
  return a

/-- How many zero bits complete a bitstream of length `len` to whole groups of B (42_modulator.md R201). -/
def padCount (b len : Nat) : Nat := if len % b ≠ 0 then b - len % b else 0

/-- The frame of an input: its bits and the padding zeros (42_modulator.md R201). -/
def frameBits (b : Nat) (xs : List Element) : List Bit :=
  xs.map elementBit ++ List.replicate (padCount b xs.length) false

/-- FRAME (42_modulator.md R201). -/
def execFrame (s : State) : Result :=
  afterChecks (frameChecks s) s fun a =>
    .next (complete { s with
      framed := frameBits a.b s.inBits
      pad := BitVec.ofNat 2 (padCount a.b s.inBits.length)
      padValid := true
      inBits := [] })

/-- onehot(M, i, A) (42_modulator.md R207). -/
def onehot (m i : Nat) (amp : Binary64) : Row := (List.range m).map fun j => if j = i then amp else numZero

/-- mapSymbol(g): the energy vector and the point of one group (42_modulator.md R205). -/
def mapSymbol (a : Alphabet) (amp : Binary64) (g : Pattern) : Row × Point :=
  (onehot a.m (a.bitsToIndex g) amp, a.indexToPoint (a.bitsToIndex g))

/-- The entry checks of MOD, in order (42_modulator.md R203). -/
def modChecks (s : State) : Except BlockError Alphabet := do
  let a ← currentAlphabet s
  require .malformedBitstream (!s.framed.isEmpty)
  require .malformedBitstream (s.framed.length % a.b == 0)
  return a

/-- The TX_META that MOD writes (42_modulator.md R204). -/
def modMeta (a : Alphabet) (s : State) : TxMeta :=
  { metaValid := true, scheme := schemeCode s.scheme, m := a.m, padValid := s.padValid, pad := s.pad,
    bpcValid := s.bpcValid, bpc := s.bpc, numSymbols := s.framed.length / a.b }

/-- MOD (42_modulator.md R204). -/
def execMod (s : State) : Result :=
  afterChecks (modChecks s) s fun a =>
    let symbols := (chunks a.b s.framed).map (mapSymbol a s.ampTx)
    .next (complete { s with
      txOut := symbols.map (·.1)
      txPts := symbols.map (·.2)
      txMeta := modMeta a s
      framed := [] })

/-- LOOP (42_modulator.md R206). -/
def execLoop (s : State) : Result :=
  afterChecks (require .malformedBitstream (!s.txOut.isEmpty)) s fun _ => completing (appendRxIn s.txOut s)

end Sys2Proof.Machine
end

