-- ==== Sys2Proof/Machine/Detector.lean ====
section
/-! DEFINITION. The receive datapath: DET (43_detector.md R240 to R251). -/

namespace Sys2Proof.Machine

/-- The entry checks of DET, in order, each over the whole of RX_IN (43_detector.md R241). -/
def detChecks (s : State) : Except BlockError Alphabet := do
  let a ← currentAlphabet s
  require .malformedBitstream (!s.rxIn.isEmpty)
  require .malformedBitstream (!(s.padValid && decide (a.b ≤ s.pad.toNat)))
  require .lengthMismatch (s.rxIn.all fun row => row.length == a.m)
  require .nonFiniteSample (s.rxIn.all fun row => row.all numIsFinite)
  return a

/-- One term of the metric: (r_j - s_j)^2, each operation rounded (43_detector.md R243). -/
def squaredError (x y : Binary64) : Binary64 := numMul (numSub x y) (numSub x y)

/-- The squared Euclidean distance of two rows of one length, summed from +0.0 in ascending j (43_detector.md R243). -/
def distance (r s : Row) : Binary64 := (List.zipWith squaredError r s).foldl numAdd numZero

/-- metric(r, i): the distance from candidate i's ideal vector (43_detector.md R242, R243). -/
def metric (m : Nat) (amp : Binary64) (r : Row) (i : Nat) : Binary64 := distance r (onehot m i amp)

/-- The scan of 43_detector.md R244 from the candidate `best` of value `dbest`, over the values of the candidates from
`next` on. -/
def leastFrom {α : Type} (lt : α → α → Bool) (best : Nat) (dbest : α) (next : Nat) : List α → Nat
  | [] => best
  | d :: ds => if lt d dbest then leastFrom lt next d (next + 1) ds else leastFrom lt best dbest (next + 1) ds

/-- The lowest index of a least value: a later value wins only when strictly less (43_detector.md R244). -/
def leastIndex {α : Type} (lt : α → α → Bool) : List α → Nat
  | [] => 0
  | d :: ds => leastFrom lt 0 d 1 ds

/-- slice(r): the candidate of least metric, lowest index on a tie (43_detector.md R244). -/
def slice (m : Nat) (amp : Binary64) (r : Row) : Nat :=
  leastIndex numLt ((List.range m).map (metric m amp r))

/-- unpad(all) (43_detector.md R247). -/
def unpad (s : State) (all : List Bit) : List Bit :=
  if s.padValid then all.take (all.length - s.pad.toNat) else all

/-- DET (43_detector.md R245, R246). -/
def execDet (s : State) : Result :=
  afterChecks (detChecks s) s fun a =>
    let idxs := s.rxIn.map (slice a.m s.ampRx)
    let pats := idxs.map a.indexToBits
    .next (complete { s with
      outBits := unpad s pats.flatten
      rxIdx := idxs
      rxSymbits := pats
      rxPts := idxs.map a.indexToPoint
      rxIn := [] })

end Sys2Proof.Machine
end

