-- ==== Sys2Proof/Machine/Dispatch.lean ====
section
/-! DEFINITION. One arm per command: the meaning of each. -/

namespace Sys2Proof.Machine

def exec (i : Instr) (s : State) : Host.Outcome State Fault Refusal :=
  match i with
  | .nop => Sys2Proof.Machine.execNop s
  | .setcfg sch => Sys2Proof.Machine.execSetcfg sch s
  | .setamp sel => Sys2Proof.Machine.execSetamp sel s
  | .setbpc v => Sys2Proof.Machine.execSetbpc v s
  | .setpad v padv => Sys2Proof.Machine.execSetpad v padv s
  | .frame => Sys2Proof.Machine.execFrame s
  | .mod => Sys2Proof.Machine.execMod s
  | .det => Sys2Proof.Machine.execDet s
  | .loop => Sys2Proof.Machine.execLoop s
  | .clrerr => Sys2Proof.Machine.execClrerr s
  | .flush ci cf cr => Sys2Proof.Machine.execFlush ci cf cr s

end Sys2Proof.Machine
end

