-- ==== Sys2Proof/Machine/Transactions.lean ====
section
/-! DEFINITION. What reaches the block from outside: the five host transactions (20_memory.md R71 to R77) and reset
(70_reset_and_hazards.md R311), and fetching the oldest event. -/

namespace Sys2Proof.Machine

/-- WDATA(v) (20_memory.md R73). -/
def doWdata (v : BitVec 64) (s : State) : Result := .next { s with data := v }

/-- PUSHBIT(v) (20_memory.md R74). -/
def doPushbit (v : Element) (s : State) : Result := appendInBits [v] s

/-- PUSHROW(row) (20_memory.md R75). -/
def doPushrow (row : Row) (s : State) : Result := appendRxIn [row] s

/-- ISSUE(c): decode, then perform the command, or take the error path on an Illegal word (20_memory.md R72,
60_exceptions.md R282). -/
def doIssue (c : CommandWord) (s : State) : Result :=
  match decode c with
  | .ok i => exec i s
  | .error _ => .next (raiseError .illegalCommand s)

/-- READ(x): the value goes to the host, and the block's state does not change (20_memory.md R77, R82). -/
def doRead (x : StateName) (s : State) : Result := .next { s with hostRead := some (readState s x) }

/-- One host transaction (20_memory.md R71). -/
def transact (t : Transaction) (s : State) : Result :=
  match t with
  | .wdata v => doWdata v s
  | .pushbit v => doPushbit v s
  | .pushrow row => doPushrow row s
  | .issue c => doIssue c s
  | .read x => doRead x s

/-- One event at the block. -/
def handle (e : Event) (s : State) : Result :=
  match e with
  | .transaction t => transact t s
  | .reset => .next (resetBlock s)

/-- The oldest event and the state that no longer holds it (20_memory.md R85). -/
def fetch (s : State) : Option (Event × State) :=
  match s.hostQueue with
  | [] => none
  | e :: rest => some (e, { s with hostQueue := rest })

/-- The state with a command word as the next event at the block. -/
def placeCommand (c : CommandWord) (s : State) : State :=
  { s with hostQueue := .transaction (.issue c) :: s.hostQueue }

/-- One step: the oldest event happens; with none waiting, the block waits (70_reset_and_hazards.md R312;
notes/assumptions/3.md). -/
def stepEvent (s : State) : Result :=
  match fetch s with
  | none => .next s
  | some (e, s') => handle e s'

end Sys2Proof.Machine
end

