-- ==== Sys2Proof/Machine/Step.lean ====
section
/-! DEFINITION. The step of the machine, and the placing of a command where the next step takes it. -/

namespace Sys2Proof.Machine

/-- One step: one host transaction or reset (00_scope.md R6, 20_memory.md R72, R85). -/
def step (s : State) : Host.Outcome State Fault Refusal := stepEvent s

/-- The state whose very next step issues the command word `w`: the word is the operand of the host's next ISSUE
(20_memory.md R72, R88; notes/assumptions/2.md). -/
def State.withFetchWord (s : State) (nbits w : Nat) : State := placeCommand (tableWord nbits w) s

end Sys2Proof.Machine
end

