-- ==== Sys2Proof/Machine/Assembler.lean ====
section
/-! DEFINITION. The spec's assembly statements: their transactions and, for the commands, their text
(30_encoding.md R112, R113). Comments and decimal literals are text only and are not modelled (notes/assumptions/15.md). -/

namespace Sys2Proof.Machine

/-- A statement of a host program: a command, a host transaction or a pseudo-instruction. -/
inductive Statement where
  | command (i : Instr)
  | wdata (v : BitVec 64)
  | pushbit (v : Element)
  | pushrow (row : Row)
  | read (x : StateName)
  | ldamp (sel : AmpSel) (a : Binary64)
  | ldbpc (t : BitVec 32)
  | clrpad
  | flushAll
  | bits (vs : List Element)
  deriving DecidableEq, Repr

/-- The ISSUE of a command's word (30_encoding.md R112). -/
def issueOf (i : Instr) : Transaction := .issue (encode i)

/-- The transactions of a statement (30_encoding.md R112, R113). -/
def assemble : Statement → List Transaction
  | .command i => [issueOf i]
  | .wdata v => [.wdata v]
  | .pushbit v => [.pushbit v]
  | .pushrow row => [.pushrow row]
  | .read x => [.read x]
  | .ldamp sel a => [.wdata a, issueOf (.setamp sel)]
  | .ldbpc t => [.wdata (t.setWidth 64), issueOf (.setbpc true)]
  | .clrpad => [issueOf (.setpad false 0)]
  | .flushAll => [issueOf (.flush true true true)]
  | .bits vs => vs.map .pushbit

/-- A bit as an assembly operand. -/
def bitText (b : Bool) : String := if b then "1" else "0"

/-- The text of a command's statement (30_encoding.md R112). -/
def statementText : Instr → String
  | .nop => "NOP"
  | .setcfg (some .fsk8) => "SETCFG FSK8"
  | .setcfg (some .qam16) => "SETCFG QAM16"
  | .setcfg (some .psk8) => "SETCFG PSK8"
  | .setcfg none => "SETCFG NONE"
  | .setamp .tx => "SETAMP TX"
  | .setamp .rx => "SETAMP RX"
  | .setbpc true => "SETBPC PRESENT"
  | .setbpc false => "SETBPC ABSENT"
  | .setpad v padv => "SETPAD " ++ bitText v ++ ", " ++ toString padv
  | .frame => "FRAME"
  | .mod => "MOD"
  | .det => "DET"
  | .loop => "LOOP"
  | .clrerr => "CLRERR"
  | .flush ci cf cr => "FLUSH " ++ bitText ci ++ ", " ++ bitText cf ++ ", " ++ bitText cr

end Sys2Proof.Machine
end

