-- ==== Sys2Proof/Safety.lean ====
section
/-! DEFINITION. What the prose of the spec promises about every state the block can be in, in the terms the statements
use. -/

namespace Sys2Proof.Machine

/-- The values CODE ever takes (60_exceptions.md R280): 2 and 8 to 15 are never written. -/
def legalCodes : List (BitVec 4) := [0#4, 1#4, 3#4, 4#4, 5#4, 6#4, 7#4]

/-- The configuration registers hold legal values (10_state.md R34, R35) and the parameters meet their constraints. -/
def configOk (s : State) : Bool := amplitudeLegal s.ampTx && amplitudeLegal s.ampRx && paramsOk s.params

/-- STATUS holds a code that is ever written, and an error code only with ERRSEEN set (10_state.md R39,
60_exceptions.md R280, R286). -/
def statusOk (s : State) : Bool := legalCodes.contains s.code && (s.code == 0#4 || s.errSeen)

/-- The input buffers are within their capacities (20_memory.md R84). -/
def capacityRespected (s : State) : Bool :=
  fits s.params.maxInBits s.inBits.length && fits s.params.maxRxRows s.rxIn.length

/-- The modulator's outputs describe one frame: a row, of M components, and a point for each symbol, and none before
the first MOD (10_state.md R42, 42_modulator.md R204). -/
def txOk (s : State) : Bool :=
  s.txOut.length == s.txMeta.numSymbols && s.txPts.length == s.txMeta.numSymbols &&
    s.txOut.all (fun row => row.length == s.txMeta.m) && (s.txMeta.metaValid || s.txOut.isEmpty)

/-- The detector's outputs describe one run: a pattern and a point for each index, every index below 16, and OUT_BITS
the patterns in order but for what padding removal dropped at the end (10_state.md R45, 43_detector.md R246). -/
def rxOk (s : State) : Bool :=
  s.rxSymbits.length == s.rxIdx.length && s.rxPts.length == s.rxIdx.length &&
    s.rxIdx.all (fun i => decide (i < 16)) && s.outBits.isPrefixOf s.rxSymbits.flatten

/-- The invariant of the block: it holds after reset and every step keeps it. -/
def blockInv (s : State) : Bool := configOk s && statusOk s && capacityRespected s && txOk s && rxOk s

/-- `z` is the binary64 number of sign `neg` nearest to n / 2^k units of 2^-1074: infinity exactly from half a unit past
the largest finite magnitude on, else the nearest finite magnitude, the even one on a tie (00_scope.md R9, R10). -/
def roundsTo (neg : Bool) (n k : Nat) (z : Binary64) : Prop :=
  numSign z = neg ∧ numMag z ≤ infMag ∧
  (numMag z = infMag ↔ (2 ^ 54 - 1) * 2 ^ 2044 * 2 ^ k ≤ n) ∧
  (numMag z < infMag → ∀ m, m < infMag → m ≠ numMag z →
    Nat.dist n (magUnits (numMag z) * 2 ^ k) < Nat.dist n (magUnits m * 2 ^ k) ∨
    (Nat.dist n (magUnits (numMag z) * 2 ^ k) = Nat.dist n (magUnits m * 2 ^ k) ∧ numMag z % 2 = 0))

/-- Two states agree on everything but STATUS. -/
def agreeButStatus (s t : State) : Prop := { t with code := s.code, errSeen := s.errSeen } = s

end Sys2Proof.Machine
end

