-- ==== Sys2Proof/Certificates/Slice0/Obligations.lean ====
section
/-! DEFINITION. The statements about the model, for the provers. OBLIGATIONS.json says of each what it states and on which
rule it rests. -/

open Sys2Proof Sys2Proof.Machine

/-! ### Encoding -/

/-- 30_encoding.md R109: each command is read from exactly the words of its row's match and mask, and each field from
its own bits. -/
def Obligations.CommandsAreReadByMatchMaskAndField : Prop :=
  ∀ c : CommandWord,
    (decode c = .ok .nop ↔ c &&& 0xFFFFFFFF#32 = 0x00000000#32) ∧
    (∀ sch, decode c = .ok (.setcfg sch) ↔
      c &&& 0xFCFFFFFF#32 = 0x10000000#32 ∧ c.extractLsb' 24 2 = schemeCode sch) ∧
    (∀ sel, decode c = .ok (.setamp sel) ↔
      c &&& 0xFEFFFFFF#32 = 0x20000000#32 ∧ (c.getLsbD 24 = true ↔ sel = .rx)) ∧
    (∀ v, decode c = .ok (.setbpc v) ↔ c &&& 0xFEFFFFFF#32 = 0x30000000#32 ∧ c.getLsbD 24 = v) ∧
    (∀ v p, decode c = .ok (.setpad v p) ↔
      c &&& 0xF8FFFFFF#32 = 0x40000000#32 ∧ c.getLsbD 24 = v ∧ (c.extractLsb' 25 2).toNat = p) ∧
    (decode c = .ok .frame ↔ c &&& 0xFFFFFFFF#32 = 0x50000000#32) ∧
    (decode c = .ok .mod ↔ c &&& 0xFFFFFFFF#32 = 0x60000000#32) ∧
    (decode c = .ok .det ↔ c &&& 0xFFFFFFFF#32 = 0x70000000#32) ∧
    (decode c = .ok .loop ↔ c &&& 0xFFFFFFFF#32 = 0x80000000#32) ∧
    (decode c = .ok .clrerr ↔ c &&& 0xFFFFFFFF#32 = 0x90000000#32) ∧
    (∀ ci cf cr, decode c = .ok (.flush ci cf cr) ↔
      c &&& 0xF8FFFFFF#32 = 0xA0000000#32 ∧ c.getLsbD 24 = ci ∧ c.getLsbD 25 = cf ∧ c.getLsbD 26 = cr) ∧
    (0xB ≤ c.toNat / 2 ^ 28 → ∀ i, decode c ≠ .ok i)

/-- Decode and encode agree, in both directions, on every word and every command. -/
def Obligations.DecodeAndEncodeAgree : Prop :=
  ∀ (c : CommandWord) (i : Instr), decode c = .ok i ↔ (wellFormed i = true ∧ encode i = c)

/-- 60_exceptions.md R282: the words that are Illegal, and what issuing one does. -/
def Obligations.IllegalWordsTakeTheErrorPath : Prop :=
  ∀ c : CommandWord,
    ((∀ i, decode c ≠ .ok i) ↔
      (0xB ≤ c.toNat / 2 ^ 28 ∨ c &&& 0x00FFFFFF#32 ≠ 0#32 ∨
        ∃ r ∈ opcodeMap, c &&& 0xF0000000#32 = r.pattern ∧ c &&& (r.mask &&& 0x0F000000#32) ≠ 0#32)) ∧
    ((∀ i, decode c ≠ .ok i) → ∀ s : State,
      transact (.issue c) s = .next { s with code := 5#4, errSeen := true })

/-- The words that 30_encoding.md R112 writes for the command statements decode to those commands. -/
def Obligations.WrittenWordsDecode : Prop :=
  decode 0x00000000#32 = .ok .nop ∧ decode 0x10000000#32 = .ok (.setcfg (some .fsk8)) ∧
  decode 0x11000000#32 = .ok (.setcfg (some .qam16)) ∧ decode 0x12000000#32 = .ok (.setcfg (some .psk8)) ∧
  decode 0x13000000#32 = .ok (.setcfg none) ∧ decode 0x20000000#32 = .ok (.setamp .tx) ∧
  decode 0x21000000#32 = .ok (.setamp .rx) ∧ decode 0x30000000#32 = .ok (.setbpc false) ∧
  decode 0x31000000#32 = .ok (.setbpc true) ∧ decode 0x45000000#32 = .ok (.setpad true 2) ∧
  decode 0x44000000#32 = .ok (.setpad false 2) ∧ decode 0x50000000#32 = .ok .frame ∧
  decode 0x60000000#32 = .ok .mod ∧ decode 0x70000000#32 = .ok .det ∧ decode 0x80000000#32 = .ok .loop ∧
  decode 0x90000000#32 = .ok .clrerr ∧ decode 0xA1000000#32 = .ok (.flush true false false) ∧
  decode 0xA2000000#32 = .ok (.flush false true false) ∧ decode 0xA4000000#32 = .ok (.flush false false true)

/-- 30_encoding.md R113: the expansions of the pseudo-instructions. -/
def Obligations.PseudoInstructionExpansions : Prop :=
  (∀ a, assemble (.ldamp .tx a) = [.wdata a, .issue 0x20000000#32]) ∧
  (∀ a, assemble (.ldamp .rx a) = [.wdata a, .issue 0x21000000#32]) ∧
  (∀ t, assemble (.ldbpc t) = [.wdata (t.setWidth 64), .issue 0x31000000#32]) ∧
  assemble .clrpad = [.issue 0x40000000#32] ∧
  assemble .flushAll = [.issue 0xA7000000#32] ∧
  (∀ vs, assemble (.bits vs) = vs.map .pushbit) ∧
  numOfInt 1 = 0x3FF0000000000000#64 ∧ numOfInt 2 = 0x4000000000000000#64

/-! ### The step and the host's transactions -/

/-- A step is the oldest event, at the state that no longer holds it (the event list is the model's: log 2). -/
def Obligations.StepTakesTheOldestEvent : Prop :=
  ∀ (s : State) (e : Event) (q : List Event), s.hostQueue = e :: q → step s = handle e { s with hostQueue := q }

/-- A step whose event issues a word that decodes runs exactly the decoded command. -/
def Obligations.StepRunsTheDecodedCommand : Prop :=
  ∀ (s : State) (c : CommandWord) (i : Instr) (q : List Event),
    s.hostQueue = .transaction (.issue c) :: q → decode c = .ok i →
      step s = exec i { s with hostQueue := q }

/-- A well-formed command whose word is placed at the fetch is what the next step runs, at the state it was placed in. -/
def Obligations.PlacedCommandRunsNext : Prop :=
  ∀ (s : State) (i : Instr), wellFormed i = true → step (s.withFetchWord 32 (encode i).toNat) = exec i s

/-- With no event waiting the block waits (the model's reading of 70_reset_and_hazards.md R312: log 3). -/
def Obligations.IdleBlockWaits : Prop :=
  ∀ s : State, s.hostQueue = [] → step s = .next s

/-- 20_memory.md R73. -/
def Obligations.WdataWritesData : Prop :=
  ∀ (v : BitVec 64) (s : State), transact (.wdata v) s = .next { s with data := v }

/-- 20_memory.md R74. -/
def Obligations.PushbitAppendsUnchecked : Prop :=
  ∀ (v : Element) (s : State),
    ((s.params.maxInBits = none ∨ ∃ n, s.params.maxInBits = some n ∧ s.inBits.length < n) →
      transact (.pushbit v) s = .next { s with inBits := s.inBits ++ [v] }) ∧
    (s.params.maxInBits = some s.inBits.length → transact (.pushbit v) s = .refused .inBitsFull)

/-- 20_memory.md R75. -/
def Obligations.PushrowAppendsUnchecked : Prop :=
  ∀ (row : Row) (s : State),
    ((s.params.maxRxRows = none ∨ ∃ n, s.params.maxRxRows = some n ∧ s.rxIn.length < n) →
      transact (.pushrow row) s = .next { s with rxIn := s.rxIn ++ [row] }) ∧
    (s.params.maxRxRows = some s.rxIn.length → transact (.pushrow row) s = .refused .rxInFull)

/-- READ gives the host the named value, whole, and changes nothing of the block; a second READ gives the same value
(20_memory.md R77, R82; where the value stands is the model's: log 4). -/
def Obligations.ReadReturnsTheNamedValue : Prop :=
  ∀ (x : StateName) (s : State),
    let v : ReadValue :=
      match x with
      | .scheme => .field2 (schemeCode s.scheme)
      | .ampTx => .num s.ampTx
      | .ampRx => .num s.ampRx
      | .pad => .field2 s.pad
      | .padValid => .flag s.padValid
      | .bpc => .word32 s.bpc
      | .bpcValid => .flag s.bpcValid
      | .data => .word64 s.data
      | .status => .word32 (statusWord s)
      | .statusCode => .field4 s.code
      | .statusErrSeen => .flag s.errSeen
      | .inBits => .elements s.inBits
      | .framed => .bits s.framed
      | .txOut => .rows s.txOut
      | .txPts => .points s.txPts
      | .txMeta => .frameInfo s.txMeta
      | .rxIn => .rows s.rxIn
      | .rxIdx => .indices s.rxIdx
      | .rxSymbits => .patterns s.rxSymbits
      | .rxPts => .points s.rxPts
      | .outBits => .bits s.outBits
    transact (.read x) s = .next { s with hostRead := some v } ∧
      transact (.read x) { s with hostRead := some v } = .next { s with hostRead := some v }

/-- 10_state.md R39, the layout: STATUS as the host reads it, bit by bit. -/
def Obligations.StatusWordLayout : Prop :=
  ∀ (s : State) (k : Nat),
    (statusWord s).getLsbD k = if k < 4 then s.code.getLsbD k else if k = 8 then s.errSeen else false

/-- 70_reset_and_hazards.md R310: reset puts every piece of state into its reset value, the alphabet ROM apart. -/
def Obligations.ResetRestoresEveryRegister : Prop :=
  ∀ s : State, ∃ t, handle .reset s = .next t ∧
    ∀ u, u = t ∨ u = State.reset →
      schemeCode u.scheme = 3#2 ∧ u.ampTx = 0x3FF0000000000000#64 ∧ u.ampRx = 0x3FF0000000000000#64 ∧
      u.pad = 0#2 ∧ u.padValid = false ∧ u.bpc = 0#32 ∧ u.bpcValid = false ∧ u.data = 0#64 ∧
      u.code = 0#4 ∧ u.errSeen = false ∧ statusWord u = 0#32 ∧
      u.inBits = [] ∧ u.framed = [] ∧ u.txOut = [] ∧ u.txPts = [] ∧ u.rxIn = [] ∧ u.rxIdx = [] ∧
      u.rxSymbits = [] ∧ u.rxPts = [] ∧ u.outBits = [] ∧
      u.txMeta.metaValid = false ∧ u.txMeta.scheme = 0#2 ∧ u.txMeta.m = 0 ∧ u.txMeta.padValid = false ∧
      u.txMeta.pad = 0#2 ∧ u.txMeta.bpcValid = false ∧ u.txMeta.bpc = 0#32 ∧ u.txMeta.numSymbols = 0 ∧
      t.params = s.params

/-! ### Control commands -/

/-- 40_control.md R130. -/
def Obligations.NopWritesOnlyCode : Prop :=
  (∀ c, decode c = .ok .nop ↔ c = 0x00000000#32) ∧
  (∀ c, c.toNat / 2 ^ 28 = 0 → c ≠ 0#32 → ∀ i, decode c ≠ .ok i) ∧
  ∀ s : State, exec .nop s = .next { s with code := 0#4 }

/-- 40_control.md R132. -/
def Obligations.SetcfgSelectsTheScheme : Prop :=
  (∀ c, (∃ sch, decode c = .ok (.setcfg sch)) ↔ c &&& 0xFCFFFFFF#32 = 0x10000000#32) ∧
  (∀ c sch, decode c = .ok (.setcfg sch) → schemeCode sch = c.extractLsb' 24 2) ∧
  ∀ s : State,
    (∀ sch, exec (.setcfg (some sch)) s = .next { s with scheme := some sch, code := 0#4 }) ∧
    exec (.setcfg none) s = .next { s with code := 1#4, errSeen := true }

/-- 40_control.md R133. -/
def Obligations.SetampSetsALegalAmplitude : Prop :=
  (∀ c, (∃ sel, decode c = .ok (.setamp sel)) ↔ c &&& 0xFEFFFFFF#32 = 0x20000000#32) ∧
  (∀ c sel, decode c = .ok (.setamp sel) → (sel = .rx ↔ c.getLsbD 24 = true)) ∧
  (∀ s : State, numIsFinite s.data = true ∧ numLt numZero s.data = true →
    exec (.setamp .tx) s = .next { s with ampTx := s.data, code := 0#4 } ∧
    exec (.setamp .rx) s = .next { s with ampRx := s.data, code := 0#4 }) ∧
  (∀ (s : State) (sel : AmpSel), ¬(numIsFinite s.data = true ∧ numLt numZero s.data = true) →
    exec (.setamp sel) s = .next { s with code := 6#4, errSeen := true }) ∧
  (∀ a : Binary64, (numIsFinite a = true ∧ numLt numZero a = true) ↔
    (0x0000000000000001 ≤ a.toNat ∧ a.toNat ≤ 0x7FEFFFFFFFFFFFFF))

/-- 40_control.md R134. -/
def Obligations.SetbpcSetsTheTag : Prop :=
  (∀ c, (∃ v, decode c = .ok (.setbpc v)) ↔ c &&& 0xFEFFFFFF#32 = 0x30000000#32) ∧
  (∀ c v, decode c = .ok (.setbpc v) → v = c.getLsbD 24) ∧
  ∀ s : State,
    exec (.setbpc true) s = .next { s with bpc := s.data.extractLsb' 0 32, bpcValid := true, code := 0#4 } ∧
    exec (.setbpc false) s = .next { s with bpc := 0#32, bpcValid := false, code := 0#4 }

/-- 40_control.md R135. -/
def Obligations.SetpadSetsThePadding : Prop :=
  (∀ c, (∃ v p, decode c = .ok (.setpad v p)) ↔ c &&& 0xF8FFFFFF#32 = 0x40000000#32) ∧
  (∀ c v p, decode c = .ok (.setpad v p) → v = c.getLsbD 24 ∧ p = (c.extractLsb' 25 2).toNat) ∧
  ∀ (s : State) (v : Bool) (p : Nat), p < 4 →
    ∃ pad : BitVec 2, pad.toNat = p ∧ exec (.setpad v p) s = .next { s with pad := pad, padValid := v, code := 0#4 }

/-- 40_control.md R136. -/
def Obligations.ClrerrClearsStatus : Prop :=
  (∀ c, decode c = .ok .clrerr ↔ c = 0x90000000#32) ∧
  (∀ s : State, exec .clrerr s = .next { s with errSeen := false, code := 0#4 }) ∧
  ∀ (i : Instr) (s t : State), exec i s = .next t → s.errSeen = true → t.errSeen = false → i = .clrerr

/-- 40_control.md R137. -/
def Obligations.FlushEmptiesTheNamedBuffers : Prop :=
  (∀ c, (∃ ci cf cr, decode c = .ok (.flush ci cf cr)) ↔ c &&& 0xF8FFFFFF#32 = 0xA0000000#32) ∧
  (∀ c ci cf cr, decode c = .ok (.flush ci cf cr) →
    ci = c.getLsbD 24 ∧ cf = c.getLsbD 25 ∧ cr = c.getLsbD 26) ∧
  ∀ (s : State) (ci cf cr : Bool),
    exec (.flush ci cf cr) s = .next { s with
      inBits := if ci = true then [] else s.inBits
      framed := if cf = true then [] else s.framed
      rxIn := if cr = true then [] else s.rxIn
      code := 0#4 }

/-! ### Transmit datapath -/

/-- 42_modulator.md R201. -/
def Obligations.FrameBuildsThePaddedFrame : Prop :=
  (∀ c, decode c = .ok .frame ↔ c = 0x50000000#32) ∧
  (∀ (s : State) (sch : Scheme), s.scheme = some sch → s.inBits ≠ [] →
    (∀ v ∈ s.inBits, v = 0#8 ∨ v = 1#8) →
    let b := (alphabet s.params sch).b
    let p := if s.inBits.length % b ≠ 0 then b - s.inBits.length % b else 0
    ∃ pad : BitVec 2, pad.toNat = p ∧
      exec .frame s = .next { s with
        framed := s.inBits.map (fun v => v == 1#8) ++ List.replicate p false
        pad := pad
        padValid := true
        inBits := []
        code := 0#4 }) ∧
  (∀ s : State, (s.scheme = none ∨ s.inBits = [] ∨ ∃ v ∈ s.inBits, v ≠ 0#8 ∧ v ≠ 1#8) →
    ∃ e ∈ [1#4, 3#4], exec .frame s = .next { s with code := e, errSeen := true })

/-- 42_modulator.md R200. -/
def Obligations.FrameChecksInOrder : Prop :=
  ∀ s : State,
    (s.scheme = none → exec .frame s = .next { s with code := 1#4, errSeen := true }) ∧
    (s.scheme ≠ none → s.inBits = [] → exec .frame s = .next { s with code := 3#4, errSeen := true }) ∧
    (s.scheme ≠ none → (∃ v ∈ s.inBits, v ≠ 0#8 ∧ v ≠ 1#8) →
      exec .frame s = .next { s with code := 3#4, errSeen := true })

/-- 42_modulator.md R202. -/
def Obligations.FramePaddingInvariant : Prop :=
  ∀ (s : State) (sch : Scheme), s.scheme = some sch → s.inBits ≠ [] →
    (∀ v ∈ s.inBits, v = 0#8 ∨ v = 1#8) →
    ∃ t, exec .frame s = .next t ∧
      t.framed.length % (alphabet s.params sch).b = 0 ∧
      t.pad.toNat < (alphabet s.params sch).b ∧
      t.framed.take s.inBits.length = s.inBits.map (fun v => v == 1#8) ∧
      t.framed.drop s.inBits.length = List.replicate t.pad.toNat false

/-- 42_modulator.md R204 and R205. -/
def Obligations.ModBuildsTheEnergyVectors : Prop :=
  (∀ c, decode c = .ok .mod ↔ c = 0x60000000#32) ∧
  (∀ (s : State) (sch : Scheme), s.scheme = some sch → s.framed ≠ [] →
    s.framed.length % (alphabet s.params sch).b = 0 →
    let a := alphabet s.params sch
    let idxs := (chunks a.b s.framed).map a.bitsToIndex
    exec .mod s = .next { s with
      txOut := idxs.map (fun i => onehot a.m i s.ampTx)
      txPts := idxs.map a.indexToPoint
      txMeta :=
        { metaValid := true, scheme := schemeCode (some sch), m := a.m, padValid := s.padValid, pad := s.pad,
          bpcValid := s.bpcValid, bpc := s.bpc, numSymbols := s.framed.length / a.b }
      framed := []
      code := 0#4 }) ∧
  (∀ s : State,
    (s.scheme = none ∨ s.framed = [] ∨
      ∃ sch, s.scheme = some sch ∧ s.framed.length % (alphabet s.params sch).b ≠ 0) →
    ∃ e ∈ [1#4, 3#4], exec .mod s = .next { s with code := e, errSeen := true })

/-- 42_modulator.md R203. -/
def Obligations.ModChecksInOrder : Prop :=
  ∀ s : State,
    (s.scheme = none → exec .mod s = .next { s with code := 1#4, errSeen := true }) ∧
    (s.scheme ≠ none → s.framed = [] → exec .mod s = .next { s with code := 3#4, errSeen := true }) ∧
    (∀ sch, s.scheme = some sch → s.framed.length % (alphabet s.params sch).b ≠ 0 →
      exec .mod s = .next { s with code := 3#4, errSeen := true })

/-- 42_modulator.md R208. -/
def Obligations.ModKeepsTheBitOrder : Prop :=
  ∀ (s : State) (sch : Scheme), s.scheme = some sch → s.framed ≠ [] →
    s.framed.length % (alphabet s.params sch).b = 0 →
    ∃ t, exec .mod s = .next t ∧
      t.txOut.length * (alphabet s.params sch).b = s.framed.length ∧
      ∀ k, k < t.txOut.length → ∃ g : Pattern,
        g.length = (alphabet s.params sch).b ∧
        (∀ j, j < (alphabet s.params sch).b → g[j]? = s.framed[k * (alphabet s.params sch).b + j]?) ∧
        t.txOut[k]? = some (onehot (alphabet s.params sch).m ((alphabet s.params sch).bitsToIndex g) s.ampTx)

/-- 42_modulator.md R206. -/
def Obligations.LoopAppendsTheTransmitRows : Prop :=
  (∀ c, decode c = .ok .loop ↔ c = 0x80000000#32) ∧
  ∀ s : State,
    (s.txOut ≠ [] →
      (s.params.maxRxRows = none ∨
        ∃ n, s.params.maxRxRows = some n ∧ s.rxIn.length + s.txOut.length ≤ n) →
      exec .loop s = .next { s with rxIn := s.rxIn ++ s.txOut, code := 0#4 }) ∧
    (s.txOut = [] → exec .loop s = .next { s with code := 3#4, errSeen := true }) ∧
    (s.txOut ≠ [] → (∃ n, s.params.maxRxRows = some n ∧ n < s.rxIn.length + s.txOut.length) →
      exec .loop s = .refused .rxInFull)

/-- 42_modulator.md R207. -/
def Obligations.OnehotComponents : Prop :=
  ∀ (m i : Nat) (a : Binary64),
    (onehot m i a).length = m ∧
    ∀ j, j < m → (onehot m i a)[j]? = some (if j = i then a else 0x0000000000000000#64)

/-- The squared norm of an energy vector, summed in NUM, is the square of its amplitude (42_modulator.md R209). -/
def Obligations.OnehotEnergyIsTheAmplitudeSquared : Prop :=
  ∀ (m i : Nat) (a : Binary64), i < m → numIsFinite a = true →
    ((onehot m i a).map fun x => numMul x x).foldl numAdd numZero = numMul a a

/-! ### Receive datapath -/

/-- 43_detector.md R246. -/
def Obligations.DetDetectsEveryRow : Prop :=
  (∀ c, decode c = .ok .det ↔ c = 0x70000000#32) ∧
  (∀ (s : State) (sch : Scheme), s.scheme = some sch → s.rxIn ≠ [] →
    (s.padValid = true → s.pad.toNat < (alphabet s.params sch).b) →
    (∀ row ∈ s.rxIn, row.length = (alphabet s.params sch).m) →
    (∀ row ∈ s.rxIn, ∀ x ∈ row, numIsFinite x = true) →
    let a := alphabet s.params sch
    let idxs := s.rxIn.map (slice a.m s.ampRx)
    let all := (idxs.map a.indexToBits).flatten
    exec .det s = .next { s with
      outBits := if s.padValid = true then all.take (all.length - s.pad.toNat) else all
      rxIdx := idxs
      rxSymbits := idxs.map a.indexToBits
      rxPts := idxs.map a.indexToPoint
      rxIn := []
      code := 0#4 }) ∧
  (∀ s : State,
    (s.scheme = none ∨ s.rxIn = [] ∨
      ∃ sch, s.scheme = some sch ∧
        ((s.padValid = true ∧ (alphabet s.params sch).b ≤ s.pad.toNat) ∨
          (∃ row ∈ s.rxIn, row.length ≠ (alphabet s.params sch).m) ∨
          (∃ row ∈ s.rxIn, ∃ x ∈ row, numIsFinite x = false))) →
    ∃ e ∈ [1#4, 3#4, 4#4, 7#4], exec .det s = .next { s with code := e, errSeen := true })

/-- 43_detector.md R241. -/
def Obligations.DetChecksInOrder : Prop :=
  ∀ s : State,
    (s.scheme = none → exec .det s = .next { s with code := 1#4, errSeen := true }) ∧
    ∀ sch, s.scheme = some sch →
      (s.rxIn = [] → exec .det s = .next { s with code := 3#4, errSeen := true }) ∧
      (s.padValid = true → (alphabet s.params sch).b ≤ s.pad.toNat →
        exec .det s = .next { s with code := 3#4, errSeen := true }) ∧
      ((s.padValid = true → s.pad.toNat < (alphabet s.params sch).b) →
        ((∃ row ∈ s.rxIn, row.length ≠ (alphabet s.params sch).m) →
          exec .det s = .next { s with code := 4#4, errSeen := true }) ∧
        ((∀ row ∈ s.rxIn, row.length = (alphabet s.params sch).m) →
          (∃ row ∈ s.rxIn, ∃ x ∈ row, numIsFinite x = false) →
          exec .det s = .next { s with code := 7#4, errSeen := true }))

/-- 43_detector.md R243: the metric is the loop over ascending j, and it is never a NaN nor negative on finite input. -/
def Obligations.MetricIsTheAscendingSum : Prop :=
  ∀ (m i : Nat) (amp : Binary64) (r : Row), r.length = m →
    metric m amp r i = (List.range m).foldl
      (fun d j =>
        let e := numSub (r.getD j numZero) (if j = i then amp else numZero)
        numAdd d (numMul e e)) numZero ∧
    (numIsFinite amp = true → (∀ x ∈ r, numIsFinite x = true) →
      numIsNan (metric m amp r i) = false ∧ numSign (metric m amp r i) = false)

/-- 43_detector.md R244: the slicer's choice is in range, of least metric, and the lowest such index. -/
def Obligations.SlicerPicksTheLowestLeastMetric : Prop :=
  ∀ (m : Nat) (amp : Binary64) (r : Row), 0 < m → r.length = m → numIsFinite amp = true →
    (∀ x ∈ r, numIsFinite x = true) →
    slice m amp r < m ∧
    (∀ k, k < m → numLt (metric m amp r k) (metric m amp r (slice m amp r)) = false) ∧
    (∀ k, k < slice m amp r → numLt (metric m amp r (slice m amp r)) (metric m amp r k) = true)

/-- 43_detector.md R247. -/
def Obligations.DetRemovesThePadding : Prop :=
  ∀ (s : State) (sch : Scheme), paramsOk s.params = true → s.scheme = some sch → s.rxIn ≠ [] →
    (s.padValid = true → s.pad.toNat < (alphabet s.params sch).b) →
    (∀ row ∈ s.rxIn, row.length = (alphabet s.params sch).m) →
    (∀ row ∈ s.rxIn, ∀ x ∈ row, numIsFinite x = true) →
    ∃ t, exec .det s = .next t ∧
      t.rxSymbits.flatten.length = s.rxIn.length * (alphabet s.params sch).b ∧
      (s.padValid = true → ∃ dropped : List Bit,
        dropped.length = s.pad.toNat ∧ t.outBits ++ dropped = t.rxSymbits.flatten) ∧
      (s.padValid = false → t.outBits = t.rxSymbits.flatten)

/-- 43_detector.md R248, over the rationals: with exact arithmetic and a positive amplitude the slicer's rule gives the
lowest index of a largest component. -/
def Obligations.ExactSlicerPicksTheLargestComponent : Prop :=
  ∀ (a : Rat) (r : List Rat), 0 < a → r ≠ [] →
    let d := fun i => ((List.range r.length).map fun j => (r.getD j 0 - if j = i then a else 0) ^ 2).sum
    let best := leastIndex (fun x y => decide (x < y)) ((List.range r.length).map d)
    best < r.length ∧ (∀ k, k < r.length → r.getD k 0 ≤ r.getD best 0) ∧
      (∀ k, k < best → r.getD k 0 < r.getD best 0)

/-- 43_detector.md R251: FRAME, MOD, LOOP and DET in that order give back the input bits and the indices sent. -/
def Obligations.NoiselessRoundTripRecoversTheInput : Prop :=
  ∀ (s : State) (sch : Scheme), paramsOk s.params = true → s.scheme = some sch → s.inBits ≠ [] →
    (∀ v ∈ s.inBits, v = 0#8 ∨ v = 1#8) → s.rxIn = [] →
    s.ampRx = s.ampTx → amplitudeLegal s.ampTx = true → numMul s.ampTx s.ampTx ≠ numZero →
    fits s.params.maxRxRows ((s.inBits.length + (alphabet s.params sch).b - 1) / (alphabet s.params sch).b) = true →
    ∃ s1 s2 s3 s4,
      exec .frame s = .next s1 ∧ exec .mod s1 = .next s2 ∧ exec .loop s2 = .next s3 ∧ exec .det s3 = .next s4 ∧
      s1.code = 0#4 ∧ s2.code = 0#4 ∧ s3.code = 0#4 ∧ s4.code = 0#4 ∧
      s4.outBits = s.inBits.map (fun v => v == 1#8) ∧
      s4.rxIdx = (chunks (alphabet s.params sch).b s1.framed).map (alphabet s.params sch).bitsToIndex ∧
      s4.rxPts = s2.txPts

/-! ### Alphabets and arithmetic -/

/-- 41_alphabet.md R173. -/
def Obligations.AlphabetsRoundTrip : Prop :=
  ∀ (p : Params) (sch : Scheme), paramsOk p = true →
    (∀ i, i < (alphabet p sch).m → (alphabet p sch).bitsToIndex ((alphabet p sch).indexToBits i) = i) ∧
    (∀ g : Pattern, g.length = (alphabet p sch).b →
      (alphabet p sch).indexToBits ((alphabet p sch).bitsToIndex g) = g)

/-- The two transforms of 41_alphabet.md R161 and R162 invert each other on every number, not on 0 to 7 only. -/
def Obligations.GrayTransformsInvertEachOther : Prop :=
  ∀ n : Nat, grayInv (gray n) = n ∧ gray (grayInv n) = n

/-- 41_alphabet.md R174. -/
def Obligations.AdjacentRawValuesGiveAdjacentIndices : Prop :=
  ∀ a ∈ [fsk8Alphabet, psk8Alphabet],
    (∀ n, n < 7 →
      hamming (patOf 3 (a.bitsToIndex (patOf 3 n))) (patOf 3 (a.bitsToIndex (patOf 3 (n + 1)))) = 1) ∧
    a.bitsToIndex (patOf 3 7) = 4 ∧ a.bitsToIndex (patOf 3 0) = 0 ∧ hamming (patOf 3 4) (patOf 3 0) = 1

/-- Which geometric neighbours of FSK8 and PSK8 carry patterns one bit apart (41_alphabet.md R176). -/
def Obligations.GeometricNeighboursAreNotGrayLabelled : Prop :=
  ∀ a ∈ [fsk8Alphabet, psk8Alphabet], ∀ i, i < 8 →
    hamming (a.indexToBits i) (a.indexToBits ((i + 1) % 8)) = if i = 3 ∨ i = 7 then 2 else 1

/-- 41_alphabet.md R166: the FSK8 table, by raw value and by index, the frequencies as binary64 patterns. -/
def Obligations.Fsk8Table : Prop :=
  (List.range 8).map (fun n => fsk8Alphabet.bitsToIndex (patOf 3 n)) = [0, 1, 3, 2, 6, 7, 5, 4] ∧
  (List.range 8).map (fun n => patVal (patOf 3 n)) = [0, 1, 2, 3, 4, 5, 6, 7] ∧
  (List.range 8).map (fun n => fsk8Alphabet.indexToPoint (fsk8Alphabet.bitsToIndex (patOf 3 n))) =
    [Point.freq 0x408F400000000000#64, Point.freq 0x409F400000000000#64, Point.freq 0x40AF400000000000#64,
     Point.freq 0x40A7700000000000#64, Point.freq 0x40BB580000000000#64, Point.freq 0x40BF400000000000#64,
     Point.freq 0x40B7700000000000#64, Point.freq 0x40B3880000000000#64] ∧
  (List.range 8).map fsk8Alphabet.indexToBits =
    [[false, false, false], [false, false, true], [false, true, true], [false, true, false],
     [true, true, true], [true, true, false], [true, false, false], [true, false, true]]

/-- The PSK8 points (41_alphabet.md R169): the coordinates are 0, 1 and s with signs, and s is the binary64 number
nearest to half the root of 2: its 53-bit significand n has (n - 1/2)^2 < 2^105 < (n + 1/2)^2. -/
def Obligations.Psk8PointsAreTheNearest : Prop :=
  (List.range 8).map psk8Alphabet.indexToPoint =
    [Point.iq 0x3FF0000000000000#64 0#64, Point.iq 0x3FE6A09E667F3BCD#64 0x3FE6A09E667F3BCD#64,
     Point.iq 0#64 0x3FF0000000000000#64, Point.iq 0xBFE6A09E667F3BCD#64 0x3FE6A09E667F3BCD#64,
     Point.iq 0xBFF0000000000000#64 0#64, Point.iq 0xBFE6A09E667F3BCD#64 0xBFE6A09E667F3BCD#64,
     Point.iq 0#64 0xBFF0000000000000#64, Point.iq 0x3FE6A09E667F3BCD#64 0xBFE6A09E667F3BCD#64] ∧
  ∃ n : Nat, magUnits (numMag 0x3FE6A09E667F3BCD#64) = n * 2 ^ 1021 ∧ 2 ^ 52 ≤ n ∧ n < 2 ^ 53 ∧
    (2 * n - 1) ^ 2 < 2 ^ 107 ∧ 2 ^ 107 < (2 * n + 1) ^ 2

/-- 41_alphabet.md R172: the default QAM16_TABLE, that it meets the constraints of R170, and its points as binary64
patterns. -/
def Obligations.DefaultQam16Table : Prop :=
  qam16TableOk State.reset.params.qam16Table = true ∧
  State.reset.params.qam16Table.map (fun row => patVal row.bits) = List.range 16 ∧
  State.reset.params.qam16Table.map (fun row => (row.i, row.q)) =
    [(3, 3), (3, -3), (3, 1), (3, -1), (-3, 3), (-3, -3), (-3, 1), (-3, -1),
     (1, 3), (1, -3), (1, 1), (1, -1), (-1, 3), (-1, -3), (-1, 1), (-1, -1)] ∧
  (∀ g : Pattern, g.length = 4 → (alphabet State.reset.params .qam16).bitsToIndex g = patVal g) ∧
  let p3 : Binary64 := 0x4008000000000000#64
  let p1 : Binary64 := 0x3FF0000000000000#64
  let n1 : Binary64 := 0xBFF0000000000000#64
  let n3 : Binary64 := 0xC008000000000000#64
  (List.range 16).map (alphabet State.reset.params .qam16).indexToPoint =
    [.iq p3 p3, .iq p3 n3, .iq p3 p1, .iq p3 n1, .iq n3 p3, .iq n3 n3, .iq n3 p1, .iq n3 n1,
     .iq p1 p3, .iq p1 n3, .iq p1 p1, .iq p1 n1, .iq n1 p3, .iq n1 n3, .iq n1 p1, .iq n1 n1]

/-- 41_alphabet.md R171: the QAM16 functions of every table that meets the constraints; each coordinate is the exact
binary64 number of the table's integer. -/
def Obligations.Qam16FunctionsComeFromTheTable : Prop :=
  ∀ p : Params, paramsOk p = true →
    let a := alphabet p .qam16
    (∀ g : Pattern, g.length = 4 → ∃ row, p.qam16Table[a.bitsToIndex g]? = some row ∧ row.bits = g) ∧
    (∀ r, r < 16 → ∃ row i q, p.qam16Table[r]? = some row ∧
      a.bitsToIndex row.bits = r ∧ a.indexToBits r = row.bits ∧ a.indexToPoint r = .iq i q ∧
      (∀ zx ∈ [(row.i, i), (row.q, q)],
        zx ∈ [((-3 : Int), 0xC008000000000000#64), (-1, 0xBFF0000000000000#64), (1, 0x3FF0000000000000#64),
          (3, 0x4008000000000000#64)] ∧
        numIsFinite zx.2 = true ∧ numUnits zx.2 = zx.1 * 2 ^ 1074))

/-- 00_scope.md R9 and R10: rounding answers the nearest binary64 magnitude, the even one on a tie, and infinity exactly from
half a unit past the largest finite magnitude on. -/
def Obligations.RoundingIsToNearestTiesToEven : Prop :=
  ∀ n k : Nat,
    (roundUnits n k = infMag ↔ (2 ^ 54 - 1) * 2 ^ 2044 * 2 ^ k ≤ n) ∧
    (roundUnits n k < infMag → ∀ m, m < infMag → m ≠ roundUnits n k →
      Nat.dist n (magUnits (roundUnits n k) * 2 ^ k) < Nat.dist n (magUnits m * 2 ^ k) ∨
      (Nat.dist n (magUnits (roundUnits n k) * 2 ^ k) = Nat.dist n (magUnits m * 2 ^ k) ∧
        roundUnits n k % 2 = 0))

/-- An operation on a NaN, and an invalid one, answers a NaN, whatever the free value is (the free bits are the model's
choice, log 6). -/
def Obligations.NanResultsAreNans : Prop :=
  ∀ x y : Binary64,
    (numIsNan x = true ∨ numIsNan y = true ∨
        (numIsInf x = true ∧ numIsInf y = true ∧ numSign x ≠ numSign y) ↔ numIsNan (numAdd x y) = true) ∧
    (numIsNan x = true ∨ numIsNan y = true ∨
        (numIsInf x = true ∧ numIsInf y = true ∧ numSign x = numSign y) ↔ numIsNan (numSub x y) = true) ∧
    (numIsNan x = true ∨ numIsNan y = true ∨ (numIsInf x = true ∧ numMag y = 0) ∨
        (numMag x = 0 ∧ numIsInf y = true) ↔ numIsNan (numMul x y) = true)

/-- 00_scope.md R9 and R10: on finite operands ⊕, ⊖ and ⊗ answer the exact sum, difference or product rounded once, with
its sign (an exact zero sum is +0.0 unless both terms are negative); where no NaN results, ⊖ adds the operand of the other
sign (a NaN difference has free bits of its own, the model's choice, log 6, and nothing is said of them); and an infinity that
makes no invalid operation answers an infinity. -/
def Obligations.ArithmeticRoundsTheExactResultOnce : Prop :=
  ∀ x y : Binary64,
    (numIsFinite x = true → numIsFinite y = true →
      (numUnits x + numUnits y = 0 →
        numAdd x y = if numSign x = true ∧ numSign y = true then 0x8000000000000000#64 else 0#64) ∧
      (numUnits x + numUnits y ≠ 0 →
        roundsTo (decide (numUnits x + numUnits y < 0)) (numUnits x + numUnits y).natAbs 0 (numAdd x y)) ∧
      (numUnits x - numUnits y = 0 →
        numSub x y = if numSign x = true ∧ numSign y = false then 0x8000000000000000#64 else 0#64) ∧
      (numUnits x - numUnits y ≠ 0 →
        roundsTo (decide (numUnits x - numUnits y < 0)) (numUnits x - numUnits y).natAbs 0 (numSub x y)) ∧
      roundsTo (numSign x != numSign y) (numUnits x * numUnits y).natAbs 1074 (numMul x y)) ∧
    (numIsNan x = false → numIsNan y = false → ¬(numIsInf x = true ∧ numIsInf y = true ∧ numSign x = numSign y) →
      numSub x y = numAdd x (y ^^^ 0x8000000000000000#64)) ∧
    (numIsInf x = true → (numIsFinite y = true ∨ y = x) → numAdd x y = x) ∧
    (numIsFinite x = true → numIsInf y = true → numAdd x y = y) ∧
    (numIsNan x = false → numIsNan y = false → numMag x ≠ 0 → numMag y ≠ 0 → (numIsInf x = true ∨ numIsInf y = true) →
      numMul x y = if numSign x = numSign y then 0x7FF0000000000000#64 else 0xFFF0000000000000#64)

/-- The value of a pattern, from its sign, exponent and fraction fields (20_memory.md R79), and <ₙ as the order of the
values, the infinities at the ends and a NaN below and above nothing (00_scope.md R10). -/
def Obligations.NumbersAreOrderedByTheirValues : Prop :=
  (∀ x : Binary64,
    let e := (x.extractLsb' 52 11).toNat
    let f := (x.extractLsb' 0 52).toNat
    (numIsFinite x = true ↔ e ≠ 0x7FF) ∧
    (numIsInf x = true ↔ e = 0x7FF ∧ f = 0) ∧
    (numIsNan x = true ↔ e = 0x7FF ∧ f ≠ 0) ∧
    (numSign x = true ↔ x.getLsbD 63 = true) ∧
    (e ≠ 0x7FF →
      numUnits x = (if x.getLsbD 63 = true then -1 else 1) *
        ((if e = 0 then f else (2 ^ 52 + f) * 2 ^ (e - 1) : Nat) : Int))) ∧
  (∀ x y : Binary64, numLt x y = true ↔
    numIsNan x = false ∧ numIsNan y = false ∧
      ((numIsFinite x = true ∧ numIsFinite y = true ∧ numUnits x < numUnits y) ∨
       (x = 0xFFF0000000000000#64 ∧ y ≠ 0xFFF0000000000000#64) ∨
       (x ≠ 0x7FF0000000000000#64 ∧ y = 0x7FF0000000000000#64)))

/-! ### Rules of the whole machine -/

/-- 40_control.md R131. -/
def Obligations.CompletionWritesCodeZero : Prop :=
  ∀ (i : Instr) (s t : State), exec i s = .next t →
    (t.code = 0#4 ∧ (i ≠ .clrerr → t.errSeen = s.errSeen) ∧ (i = .clrerr → t.errSeen = false)) ∨
    (t.code ≠ 0#4 ∧ t = { s with code := t.code, errSeen := true })

/-- 60_exceptions.md R286. -/
def Obligations.ErrorsChangeOnlyStatus : Prop :=
  ∀ (c : CommandWord) (s t : State), transact (.issue c) s = .next t → t.code ≠ 0#4 →
    t = { s with code := t.code, errSeen := true }

/-- 60_exceptions.md R281, R283, R284, R285, R287, R288: when a command reports each code. -/
def Obligations.EachErrorHasItsCases : Prop :=
  ∀ (i : Instr) (s t : State), exec i s = .next t →
    (t.code = 1#4 ↔ (i = .setcfg none ∨ ((i = .frame ∨ i = .mod ∨ i = .det) ∧ s.scheme = none))) ∧
    (t.code = 3#4 ↔
      ((i = .frame ∧ s.scheme ≠ none ∧ (s.inBits = [] ∨ ∃ v ∈ s.inBits, v ≠ 0#8 ∧ v ≠ 1#8)) ∨
       (i = .mod ∧ ∃ sch, s.scheme = some sch ∧
          (s.framed = [] ∨ s.framed.length % (alphabet s.params sch).b ≠ 0)) ∨
       (i = .loop ∧ s.txOut = []) ∨
       (i = .det ∧ ∃ sch, s.scheme = some sch ∧
          (s.rxIn = [] ∨ (s.padValid = true ∧ (alphabet s.params sch).b ≤ s.pad.toNat))))) ∧
    (t.code = 4#4 ↔
      (i = .det ∧ ∃ sch, s.scheme = some sch ∧
        ¬(s.padValid = true ∧ (alphabet s.params sch).b ≤ s.pad.toNat) ∧
        ∃ row ∈ s.rxIn, row.length ≠ (alphabet s.params sch).m)) ∧
    (t.code = 6#4 ↔ ∃ sel, i = .setamp sel ∧ ¬(numIsFinite s.data = true ∧ numLt numZero s.data = true)) ∧
    (t.code = 7#4 ↔
      (i = .det ∧ ∃ sch, s.scheme = some sch ∧
        ¬(s.padValid = true ∧ (alphabet s.params sch).b ≤ s.pad.toNat) ∧
        (∀ row ∈ s.rxIn, row.length = (alphabet s.params sch).m) ∧
        ∃ row ∈ s.rxIn, ∃ x ∈ row, numIsFinite x = false)) ∧
    t.code ∈ [0#4, 1#4, 3#4, 4#4, 6#4, 7#4]

/-- Every register and buffer keeps its value under every command but its writers (10_state.md R33 to R48). -/
def Obligations.EveryRegisterHasItsWriters : Prop :=
  ∀ (i : Instr) (s t : State), exec i s = .next t →
    ((∀ sch, i ≠ .setcfg sch) → t.scheme = s.scheme) ∧
    (i ≠ .setamp .tx → t.ampTx = s.ampTx) ∧
    (i ≠ .setamp .rx → t.ampRx = s.ampRx) ∧
    (i ≠ .frame → (∀ v p, i ≠ .setpad v p) → t.pad = s.pad ∧ t.padValid = s.padValid) ∧
    ((∀ v, i ≠ .setbpc v) → t.bpc = s.bpc ∧ t.bpcValid = s.bpcValid) ∧
    t.data = s.data ∧
    (i ≠ .frame → (∀ cf cr, i ≠ .flush true cf cr) → t.inBits = s.inBits) ∧
    (i ≠ .frame → i ≠ .mod → (∀ ci cr, i ≠ .flush ci true cr) → t.framed = s.framed) ∧
    (i ≠ .mod → t.txOut = s.txOut ∧ t.txPts = s.txPts ∧ t.txMeta = s.txMeta) ∧
    (i ≠ .loop → i ≠ .det → (∀ ci cf, i ≠ .flush ci cf true) → t.rxIn = s.rxIn) ∧
    (i ≠ .det → t.rxIdx = s.rxIdx ∧ t.rxSymbits = s.rxSymbits ∧ t.rxPts = s.rxPts ∧ t.outBits = s.outBits) ∧
    t.params = s.params ∧ t.hostQueue = s.hostQueue ∧ t.hostRead = s.hostRead

/-- No command's result depends on what STATUS held, ERRSEEN itself apart (60_exceptions.md R290). -/
def Obligations.StatusSteersNoCommand : Prop :=
  ∀ (i : Instr) (s : State) (c : BitVec 4) (e : Bool),
    match exec i s, exec i { s with code := c, errSeen := e } with
    | .next t, .next u => u.code = t.code ∧ { u with errSeen := t.errSeen } = t
    | .refused r, .refused r' => r = r'
    | _, _ => False

/-- Every command answers a next state, but for a LOOP that would overfill RX_IN (20_memory.md R72, R84). -/
def Obligations.EveryCommandCompletes : Prop :=
  ∀ (i : Instr) (s : State),
    (∃ t, exec i s = .next t) ∨
    (exec i s = .refused .rxInFull ∧ i = .loop ∧
      ∃ n, s.params.maxRxRows = some n ∧ n < s.rxIn.length + s.txOut.length)

/-- With the reference model's unbounded buffers, every sequence of events is worked off (20_memory.md R72, R84; the
event list is the model's: log 2). -/
def Obligations.EveryEventSequenceIsWorkedOff : Prop :=
  ∀ s : State, s.params.maxInBits = none → s.params.maxRxRows = none →
    ∃ t : State, Host.Core.run Sys2Proof.core s.hostQueue.length s = .next t ∧ t.hostQueue = [] ∧ t.params = s.params

/-- The invariant holds after reset. -/
def Obligations.InvariantHoldsAtReset : Prop := blockInv State.reset = true

/-- Every step keeps the invariant, from every state that meets it. -/
def Obligations.StepKeepsTheInvariant : Prop :=
  ∀ s t : State, blockInv s = true → step s = .next t → blockInv t = true
end

