-- ==== Sys2Proof/Laws/State.lean ====
section
/-! SUPPORT. One lemma per field per update of the state, true by rfl, so that no later proof unfolds a record update. -/

namespace Sys2Proof.Machine

/-! ### `complete` -/

@[simp] theorem complete_scheme (s : State) : (complete s).scheme = s.scheme := rfl
@[simp] theorem complete_ampTx (s : State) : (complete s).ampTx = s.ampTx := rfl
@[simp] theorem complete_ampRx (s : State) : (complete s).ampRx = s.ampRx := rfl
@[simp] theorem complete_pad (s : State) : (complete s).pad = s.pad := rfl
@[simp] theorem complete_padValid (s : State) : (complete s).padValid = s.padValid := rfl
@[simp] theorem complete_bpc (s : State) : (complete s).bpc = s.bpc := rfl
@[simp] theorem complete_bpcValid (s : State) : (complete s).bpcValid = s.bpcValid := rfl
@[simp] theorem complete_data (s : State) : (complete s).data = s.data := rfl
@[simp] theorem complete_code (s : State) : (complete s).code = codeOk := rfl
@[simp] theorem complete_errSeen (s : State) : (complete s).errSeen = s.errSeen := rfl
@[simp] theorem complete_inBits (s : State) : (complete s).inBits = s.inBits := rfl
@[simp] theorem complete_framed (s : State) : (complete s).framed = s.framed := rfl
@[simp] theorem complete_txOut (s : State) : (complete s).txOut = s.txOut := rfl
@[simp] theorem complete_txPts (s : State) : (complete s).txPts = s.txPts := rfl
@[simp] theorem complete_txMeta (s : State) : (complete s).txMeta = s.txMeta := rfl
@[simp] theorem complete_rxIn (s : State) : (complete s).rxIn = s.rxIn := rfl
@[simp] theorem complete_rxIdx (s : State) : (complete s).rxIdx = s.rxIdx := rfl
@[simp] theorem complete_rxSymbits (s : State) : (complete s).rxSymbits = s.rxSymbits := rfl
@[simp] theorem complete_rxPts (s : State) : (complete s).rxPts = s.rxPts := rfl
@[simp] theorem complete_outBits (s : State) : (complete s).outBits = s.outBits := rfl
@[simp] theorem complete_params (s : State) : (complete s).params = s.params := rfl
@[simp] theorem complete_hostQueue (s : State) : (complete s).hostQueue = s.hostQueue := rfl
@[simp] theorem complete_hostRead (s : State) : (complete s).hostRead = s.hostRead := rfl

/-! ### `raiseError` -/

@[simp] theorem raiseError_scheme (e : BlockError) (s : State) : (raiseError e s).scheme = s.scheme := rfl
@[simp] theorem raiseError_ampTx (e : BlockError) (s : State) : (raiseError e s).ampTx = s.ampTx := rfl
@[simp] theorem raiseError_ampRx (e : BlockError) (s : State) : (raiseError e s).ampRx = s.ampRx := rfl
@[simp] theorem raiseError_pad (e : BlockError) (s : State) : (raiseError e s).pad = s.pad := rfl
@[simp] theorem raiseError_padValid (e : BlockError) (s : State) : (raiseError e s).padValid = s.padValid := rfl
@[simp] theorem raiseError_bpc (e : BlockError) (s : State) : (raiseError e s).bpc = s.bpc := rfl
@[simp] theorem raiseError_bpcValid (e : BlockError) (s : State) : (raiseError e s).bpcValid = s.bpcValid := rfl
@[simp] theorem raiseError_data (e : BlockError) (s : State) : (raiseError e s).data = s.data := rfl
@[simp] theorem raiseError_code (e : BlockError) (s : State) : (raiseError e s).code = errorCode e := rfl
@[simp] theorem raiseError_errSeen (e : BlockError) (s : State) : (raiseError e s).errSeen = true := rfl
@[simp] theorem raiseError_inBits (e : BlockError) (s : State) : (raiseError e s).inBits = s.inBits := rfl
@[simp] theorem raiseError_framed (e : BlockError) (s : State) : (raiseError e s).framed = s.framed := rfl
@[simp] theorem raiseError_txOut (e : BlockError) (s : State) : (raiseError e s).txOut = s.txOut := rfl
@[simp] theorem raiseError_txPts (e : BlockError) (s : State) : (raiseError e s).txPts = s.txPts := rfl
@[simp] theorem raiseError_txMeta (e : BlockError) (s : State) : (raiseError e s).txMeta = s.txMeta := rfl
@[simp] theorem raiseError_rxIn (e : BlockError) (s : State) : (raiseError e s).rxIn = s.rxIn := rfl
@[simp] theorem raiseError_rxIdx (e : BlockError) (s : State) : (raiseError e s).rxIdx = s.rxIdx := rfl
@[simp] theorem raiseError_rxSymbits (e : BlockError) (s : State) : (raiseError e s).rxSymbits = s.rxSymbits := rfl
@[simp] theorem raiseError_rxPts (e : BlockError) (s : State) : (raiseError e s).rxPts = s.rxPts := rfl
@[simp] theorem raiseError_outBits (e : BlockError) (s : State) : (raiseError e s).outBits = s.outBits := rfl
@[simp] theorem raiseError_params (e : BlockError) (s : State) : (raiseError e s).params = s.params := rfl
@[simp] theorem raiseError_hostQueue (e : BlockError) (s : State) : (raiseError e s).hostQueue = s.hostQueue := rfl
@[simp] theorem raiseError_hostRead (e : BlockError) (s : State) : (raiseError e s).hostRead = s.hostRead := rfl

/-! ### `clearErrors` -/

@[simp] theorem clearErrors_scheme (s : State) : (clearErrors s).scheme = s.scheme := rfl
@[simp] theorem clearErrors_ampTx (s : State) : (clearErrors s).ampTx = s.ampTx := rfl
@[simp] theorem clearErrors_ampRx (s : State) : (clearErrors s).ampRx = s.ampRx := rfl
@[simp] theorem clearErrors_pad (s : State) : (clearErrors s).pad = s.pad := rfl
@[simp] theorem clearErrors_padValid (s : State) : (clearErrors s).padValid = s.padValid := rfl
@[simp] theorem clearErrors_bpc (s : State) : (clearErrors s).bpc = s.bpc := rfl
@[simp] theorem clearErrors_bpcValid (s : State) : (clearErrors s).bpcValid = s.bpcValid := rfl
@[simp] theorem clearErrors_data (s : State) : (clearErrors s).data = s.data := rfl
@[simp] theorem clearErrors_code (s : State) : (clearErrors s).code = codeOk := rfl
@[simp] theorem clearErrors_errSeen (s : State) : (clearErrors s).errSeen = false := rfl
@[simp] theorem clearErrors_inBits (s : State) : (clearErrors s).inBits = s.inBits := rfl
@[simp] theorem clearErrors_framed (s : State) : (clearErrors s).framed = s.framed := rfl
@[simp] theorem clearErrors_txOut (s : State) : (clearErrors s).txOut = s.txOut := rfl
@[simp] theorem clearErrors_txPts (s : State) : (clearErrors s).txPts = s.txPts := rfl
@[simp] theorem clearErrors_txMeta (s : State) : (clearErrors s).txMeta = s.txMeta := rfl
@[simp] theorem clearErrors_rxIn (s : State) : (clearErrors s).rxIn = s.rxIn := rfl
@[simp] theorem clearErrors_rxIdx (s : State) : (clearErrors s).rxIdx = s.rxIdx := rfl
@[simp] theorem clearErrors_rxSymbits (s : State) : (clearErrors s).rxSymbits = s.rxSymbits := rfl
@[simp] theorem clearErrors_rxPts (s : State) : (clearErrors s).rxPts = s.rxPts := rfl
@[simp] theorem clearErrors_outBits (s : State) : (clearErrors s).outBits = s.outBits := rfl
@[simp] theorem clearErrors_params (s : State) : (clearErrors s).params = s.params := rfl
@[simp] theorem clearErrors_hostQueue (s : State) : (clearErrors s).hostQueue = s.hostQueue := rfl
@[simp] theorem clearErrors_hostRead (s : State) : (clearErrors s).hostRead = s.hostRead := rfl

/-! ### `writeAmplitude_tx` -/

@[simp] theorem writeAmplitude_tx_scheme (a : Binary64) (s : State) : (writeAmplitude .tx a s).scheme = s.scheme := rfl
@[simp] theorem writeAmplitude_tx_ampTx (a : Binary64) (s : State) : (writeAmplitude .tx a s).ampTx = a := rfl
@[simp] theorem writeAmplitude_tx_ampRx (a : Binary64) (s : State) : (writeAmplitude .tx a s).ampRx = s.ampRx := rfl
@[simp] theorem writeAmplitude_tx_pad (a : Binary64) (s : State) : (writeAmplitude .tx a s).pad = s.pad := rfl
@[simp] theorem writeAmplitude_tx_padValid (a : Binary64) (s : State) : (writeAmplitude .tx a s).padValid = s.padValid := rfl
@[simp] theorem writeAmplitude_tx_bpc (a : Binary64) (s : State) : (writeAmplitude .tx a s).bpc = s.bpc := rfl
@[simp] theorem writeAmplitude_tx_bpcValid (a : Binary64) (s : State) : (writeAmplitude .tx a s).bpcValid = s.bpcValid := rfl
@[simp] theorem writeAmplitude_tx_data (a : Binary64) (s : State) : (writeAmplitude .tx a s).data = s.data := rfl
@[simp] theorem writeAmplitude_tx_code (a : Binary64) (s : State) : (writeAmplitude .tx a s).code = s.code := rfl
@[simp] theorem writeAmplitude_tx_errSeen (a : Binary64) (s : State) : (writeAmplitude .tx a s).errSeen = s.errSeen := rfl
@[simp] theorem writeAmplitude_tx_inBits (a : Binary64) (s : State) : (writeAmplitude .tx a s).inBits = s.inBits := rfl
@[simp] theorem writeAmplitude_tx_framed (a : Binary64) (s : State) : (writeAmplitude .tx a s).framed = s.framed := rfl
@[simp] theorem writeAmplitude_tx_txOut (a : Binary64) (s : State) : (writeAmplitude .tx a s).txOut = s.txOut := rfl
@[simp] theorem writeAmplitude_tx_txPts (a : Binary64) (s : State) : (writeAmplitude .tx a s).txPts = s.txPts := rfl
@[simp] theorem writeAmplitude_tx_txMeta (a : Binary64) (s : State) : (writeAmplitude .tx a s).txMeta = s.txMeta := rfl
@[simp] theorem writeAmplitude_tx_rxIn (a : Binary64) (s : State) : (writeAmplitude .tx a s).rxIn = s.rxIn := rfl
@[simp] theorem writeAmplitude_tx_rxIdx (a : Binary64) (s : State) : (writeAmplitude .tx a s).rxIdx = s.rxIdx := rfl
@[simp] theorem writeAmplitude_tx_rxSymbits (a : Binary64) (s : State) : (writeAmplitude .tx a s).rxSymbits = s.rxSymbits := rfl
@[simp] theorem writeAmplitude_tx_rxPts (a : Binary64) (s : State) : (writeAmplitude .tx a s).rxPts = s.rxPts := rfl
@[simp] theorem writeAmplitude_tx_outBits (a : Binary64) (s : State) : (writeAmplitude .tx a s).outBits = s.outBits := rfl
@[simp] theorem writeAmplitude_tx_params (a : Binary64) (s : State) : (writeAmplitude .tx a s).params = s.params := rfl
@[simp] theorem writeAmplitude_tx_hostQueue (a : Binary64) (s : State) : (writeAmplitude .tx a s).hostQueue = s.hostQueue := rfl
@[simp] theorem writeAmplitude_tx_hostRead (a : Binary64) (s : State) : (writeAmplitude .tx a s).hostRead = s.hostRead := rfl

/-! ### `writeAmplitude_rx` -/

@[simp] theorem writeAmplitude_rx_scheme (a : Binary64) (s : State) : (writeAmplitude .rx a s).scheme = s.scheme := rfl
@[simp] theorem writeAmplitude_rx_ampTx (a : Binary64) (s : State) : (writeAmplitude .rx a s).ampTx = s.ampTx := rfl
@[simp] theorem writeAmplitude_rx_ampRx (a : Binary64) (s : State) : (writeAmplitude .rx a s).ampRx = a := rfl
@[simp] theorem writeAmplitude_rx_pad (a : Binary64) (s : State) : (writeAmplitude .rx a s).pad = s.pad := rfl
@[simp] theorem writeAmplitude_rx_padValid (a : Binary64) (s : State) : (writeAmplitude .rx a s).padValid = s.padValid := rfl
@[simp] theorem writeAmplitude_rx_bpc (a : Binary64) (s : State) : (writeAmplitude .rx a s).bpc = s.bpc := rfl
@[simp] theorem writeAmplitude_rx_bpcValid (a : Binary64) (s : State) : (writeAmplitude .rx a s).bpcValid = s.bpcValid := rfl
@[simp] theorem writeAmplitude_rx_data (a : Binary64) (s : State) : (writeAmplitude .rx a s).data = s.data := rfl
@[simp] theorem writeAmplitude_rx_code (a : Binary64) (s : State) : (writeAmplitude .rx a s).code = s.code := rfl
@[simp] theorem writeAmplitude_rx_errSeen (a : Binary64) (s : State) : (writeAmplitude .rx a s).errSeen = s.errSeen := rfl
@[simp] theorem writeAmplitude_rx_inBits (a : Binary64) (s : State) : (writeAmplitude .rx a s).inBits = s.inBits := rfl
@[simp] theorem writeAmplitude_rx_framed (a : Binary64) (s : State) : (writeAmplitude .rx a s).framed = s.framed := rfl
@[simp] theorem writeAmplitude_rx_txOut (a : Binary64) (s : State) : (writeAmplitude .rx a s).txOut = s.txOut := rfl
@[simp] theorem writeAmplitude_rx_txPts (a : Binary64) (s : State) : (writeAmplitude .rx a s).txPts = s.txPts := rfl
@[simp] theorem writeAmplitude_rx_txMeta (a : Binary64) (s : State) : (writeAmplitude .rx a s).txMeta = s.txMeta := rfl
@[simp] theorem writeAmplitude_rx_rxIn (a : Binary64) (s : State) : (writeAmplitude .rx a s).rxIn = s.rxIn := rfl
@[simp] theorem writeAmplitude_rx_rxIdx (a : Binary64) (s : State) : (writeAmplitude .rx a s).rxIdx = s.rxIdx := rfl
@[simp] theorem writeAmplitude_rx_rxSymbits (a : Binary64) (s : State) : (writeAmplitude .rx a s).rxSymbits = s.rxSymbits := rfl
@[simp] theorem writeAmplitude_rx_rxPts (a : Binary64) (s : State) : (writeAmplitude .rx a s).rxPts = s.rxPts := rfl
@[simp] theorem writeAmplitude_rx_outBits (a : Binary64) (s : State) : (writeAmplitude .rx a s).outBits = s.outBits := rfl
@[simp] theorem writeAmplitude_rx_params (a : Binary64) (s : State) : (writeAmplitude .rx a s).params = s.params := rfl
@[simp] theorem writeAmplitude_rx_hostQueue (a : Binary64) (s : State) : (writeAmplitude .rx a s).hostQueue = s.hostQueue := rfl
@[simp] theorem writeAmplitude_rx_hostRead (a : Binary64) (s : State) : (writeAmplitude .rx a s).hostRead = s.hostRead := rfl

/-! ### `placeCommand` -/

@[simp] theorem placeCommand_scheme (c : CommandWord) (s : State) : (placeCommand c s).scheme = s.scheme := rfl
@[simp] theorem placeCommand_ampTx (c : CommandWord) (s : State) : (placeCommand c s).ampTx = s.ampTx := rfl
@[simp] theorem placeCommand_ampRx (c : CommandWord) (s : State) : (placeCommand c s).ampRx = s.ampRx := rfl
@[simp] theorem placeCommand_pad (c : CommandWord) (s : State) : (placeCommand c s).pad = s.pad := rfl
@[simp] theorem placeCommand_padValid (c : CommandWord) (s : State) : (placeCommand c s).padValid = s.padValid := rfl
@[simp] theorem placeCommand_bpc (c : CommandWord) (s : State) : (placeCommand c s).bpc = s.bpc := rfl
@[simp] theorem placeCommand_bpcValid (c : CommandWord) (s : State) : (placeCommand c s).bpcValid = s.bpcValid := rfl
@[simp] theorem placeCommand_data (c : CommandWord) (s : State) : (placeCommand c s).data = s.data := rfl
@[simp] theorem placeCommand_code (c : CommandWord) (s : State) : (placeCommand c s).code = s.code := rfl
@[simp] theorem placeCommand_errSeen (c : CommandWord) (s : State) : (placeCommand c s).errSeen = s.errSeen := rfl
@[simp] theorem placeCommand_inBits (c : CommandWord) (s : State) : (placeCommand c s).inBits = s.inBits := rfl
@[simp] theorem placeCommand_framed (c : CommandWord) (s : State) : (placeCommand c s).framed = s.framed := rfl
@[simp] theorem placeCommand_txOut (c : CommandWord) (s : State) : (placeCommand c s).txOut = s.txOut := rfl
@[simp] theorem placeCommand_txPts (c : CommandWord) (s : State) : (placeCommand c s).txPts = s.txPts := rfl
@[simp] theorem placeCommand_txMeta (c : CommandWord) (s : State) : (placeCommand c s).txMeta = s.txMeta := rfl
@[simp] theorem placeCommand_rxIn (c : CommandWord) (s : State) : (placeCommand c s).rxIn = s.rxIn := rfl
@[simp] theorem placeCommand_rxIdx (c : CommandWord) (s : State) : (placeCommand c s).rxIdx = s.rxIdx := rfl
@[simp] theorem placeCommand_rxSymbits (c : CommandWord) (s : State) : (placeCommand c s).rxSymbits = s.rxSymbits := rfl
@[simp] theorem placeCommand_rxPts (c : CommandWord) (s : State) : (placeCommand c s).rxPts = s.rxPts := rfl
@[simp] theorem placeCommand_outBits (c : CommandWord) (s : State) : (placeCommand c s).outBits = s.outBits := rfl
@[simp] theorem placeCommand_params (c : CommandWord) (s : State) : (placeCommand c s).params = s.params := rfl
@[simp] theorem placeCommand_hostQueue (c : CommandWord) (s : State) : (placeCommand c s).hostQueue = .transaction (.issue c) :: s.hostQueue := rfl
@[simp] theorem placeCommand_hostRead (c : CommandWord) (s : State) : (placeCommand c s).hostRead = s.hostRead := rfl

/-! ### `resetBlock` -/

@[simp] theorem resetBlock_scheme (s : State) : (resetBlock s).scheme = State.reset.scheme := rfl
@[simp] theorem resetBlock_ampTx (s : State) : (resetBlock s).ampTx = State.reset.ampTx := rfl
@[simp] theorem resetBlock_ampRx (s : State) : (resetBlock s).ampRx = State.reset.ampRx := rfl
@[simp] theorem resetBlock_pad (s : State) : (resetBlock s).pad = State.reset.pad := rfl
@[simp] theorem resetBlock_padValid (s : State) : (resetBlock s).padValid = State.reset.padValid := rfl
@[simp] theorem resetBlock_bpc (s : State) : (resetBlock s).bpc = State.reset.bpc := rfl
@[simp] theorem resetBlock_bpcValid (s : State) : (resetBlock s).bpcValid = State.reset.bpcValid := rfl
@[simp] theorem resetBlock_data (s : State) : (resetBlock s).data = State.reset.data := rfl
@[simp] theorem resetBlock_code (s : State) : (resetBlock s).code = State.reset.code := rfl
@[simp] theorem resetBlock_errSeen (s : State) : (resetBlock s).errSeen = State.reset.errSeen := rfl
@[simp] theorem resetBlock_inBits (s : State) : (resetBlock s).inBits = State.reset.inBits := rfl
@[simp] theorem resetBlock_framed (s : State) : (resetBlock s).framed = State.reset.framed := rfl
@[simp] theorem resetBlock_txOut (s : State) : (resetBlock s).txOut = State.reset.txOut := rfl
@[simp] theorem resetBlock_txPts (s : State) : (resetBlock s).txPts = State.reset.txPts := rfl
@[simp] theorem resetBlock_txMeta (s : State) : (resetBlock s).txMeta = State.reset.txMeta := rfl
@[simp] theorem resetBlock_rxIn (s : State) : (resetBlock s).rxIn = State.reset.rxIn := rfl
@[simp] theorem resetBlock_rxIdx (s : State) : (resetBlock s).rxIdx = State.reset.rxIdx := rfl
@[simp] theorem resetBlock_rxSymbits (s : State) : (resetBlock s).rxSymbits = State.reset.rxSymbits := rfl
@[simp] theorem resetBlock_rxPts (s : State) : (resetBlock s).rxPts = State.reset.rxPts := rfl
@[simp] theorem resetBlock_outBits (s : State) : (resetBlock s).outBits = State.reset.outBits := rfl
@[simp] theorem resetBlock_params (s : State) : (resetBlock s).params = s.params := rfl
@[simp] theorem resetBlock_hostQueue (s : State) : (resetBlock s).hostQueue = s.hostQueue := rfl
@[simp] theorem resetBlock_hostRead (s : State) : (resetBlock s).hostRead = s.hostRead := rfl

end Sys2Proof.Machine
end

