-- ==== Sys2Proof/Laws/Ops.lean ====
section
/-! SUPPORT. What each shared operation can do, said once: the checks, the appends, the completion, the fetch. -/

namespace Sys2Proof.Machine

/-- `afterChecks` answers the error path or goes on with what the checks found. -/
theorem afterChecks_cases {α : Type} {checks : Except BlockError α} {s : State} {body : α → Result} {o : Result}
    (h : afterChecks checks s body = o) :
    (∃ e, checks = .error e ∧ o = .next (raiseError e s)) ∨ (∃ a, checks = .ok a ∧ o = body a) := by
  cases checks with
  | error e => exact .inl ⟨e, rfl, h.symm⟩
  | ok a => exact .inr ⟨a, rfl, h.symm⟩

@[simp] theorem afterChecks_error {α : Type} (e : BlockError) (s : State) (body : α → Result) :
    afterChecks (.error e) s body = .next (raiseError e s) := rfl

@[simp] theorem afterChecks_ok {α : Type} (a : α) (s : State) (body : α → Result) :
    afterChecks (.ok a) s body = body a := rfl

@[simp] theorem require_true (e : BlockError) : require e true = .ok () := rfl

@[simp] theorem require_false (e : BlockError) : require e false = .error e := rfl

theorem currentAlphabet_none {s : State} (h : s.scheme = none) : currentAlphabet s = .error .unsupportedScheme := by
  simp [currentAlphabet, h]

theorem currentAlphabet_some {s : State} {sch : Scheme} (h : s.scheme = some sch) :
    currentAlphabet s = .ok (alphabet s.params sch) := by
  simp [currentAlphabet, h]

/-- A check in a chain passes on when it holds. -/
theorem require_bind_ok {α : Type} (e : BlockError) (b : Bool) (f : Unit → Except BlockError α) (a : α) :
    (require e b >>= f) = .ok a ↔ b = true ∧ f () = .ok a := by
  cases b <;> simp [bind, Except.bind]

/-- A check in a chain fails with its own error, or leaves the error to the rest of the chain. -/
theorem require_bind_error {α : Type} (e : BlockError) (b : Bool) (f : Unit → Except BlockError α) (e' : BlockError) :
    (require e b >>= f) = .error e' ↔ (b = false ∧ e' = e) ∨ (b = true ∧ f () = .error e') := by
  cases b <;> simp [bind, Except.bind, eq_comm]

/-- The scheme check in a chain passes on with the scheme's alphabet. -/
theorem currentAlphabet_bind_ok {α : Type} (s : State) (f : Alphabet → Except BlockError α) (a : α) :
    (currentAlphabet s >>= f) = .ok a ↔ ∃ sch, s.scheme = some sch ∧ f (alphabet s.params sch) = .ok a := by
  cases hs : s.scheme <;> simp [currentAlphabet, hs, bind, Except.bind]

/-- The scheme check in a chain fails on NONE, or leaves the error to the rest of the chain. -/
theorem currentAlphabet_bind_error {α : Type} (s : State) (f : Alphabet → Except BlockError α) (e : BlockError) :
    (currentAlphabet s >>= f) = .error e ↔ (s.scheme = none ∧ e = .unsupportedScheme) ∨
      ∃ sch, s.scheme = some sch ∧ f (alphabet s.params sch) = .error e := by
  cases hs : s.scheme <;> simp [currentAlphabet, hs, bind, Except.bind, eq_comm]

@[simp] theorem fits_none (n : Nat) : fits none n = true := rfl

@[simp] theorem fits_some (max n : Nat) : fits (some max) n = decide (n ≤ max) := rfl

/-- `appendInBits` appends within the capacity, or is refused. -/
theorem appendInBits_cases {vs : List Element} {s : State} {o : Result} (h : appendInBits vs s = o) :
    (fits s.params.maxInBits (s.inBits.length + vs.length) = true ∧ o = .next { s with inBits := s.inBits ++ vs }) ∨
      (fits s.params.maxInBits (s.inBits.length + vs.length) = false ∧ o = .refused .inBitsFull) := by
  unfold appendInBits at h
  split at h
  · exact .inl ⟨‹_›, h.symm⟩
  · exact .inr ⟨by simp_all, h.symm⟩

/-- `appendRxIn` appends within the capacity, or is refused. -/
theorem appendRxIn_cases {rows : List Row} {s : State} {o : Result} (h : appendRxIn rows s = o) :
    (fits s.params.maxRxRows (s.rxIn.length + rows.length) = true ∧ o = .next { s with rxIn := s.rxIn ++ rows }) ∨
      (fits s.params.maxRxRows (s.rxIn.length + rows.length) = false ∧ o = .refused .rxInFull) := by
  unfold appendRxIn at h
  split at h
  · exact .inl ⟨‹_›, h.symm⟩
  · exact .inr ⟨by simp_all, h.symm⟩

/-- `completing` answers a next state only from a next state, completed. -/
theorem completing_next {o : Result} {t : State} (h : completing o = .next t) :
    ∃ u, o = .next u ∧ t = complete u := by
  cases o with
  | next u => exact ⟨u, rfl, by simpa [completing] using h.symm⟩
  | fault f => cases h
  | refused r => cases h

theorem fetch_nil {s : State} (h : s.hostQueue = []) : fetch s = none := by simp [fetch, h]

theorem fetch_cons {s : State} {e : Event} {rest : List Event} (h : s.hostQueue = e :: rest) :
    fetch s = some (e, { s with hostQueue := rest }) := by simp [fetch, h]

/-- `readState` answers STATUS as one word and TX_META as its record. -/
@[simp] theorem readState_status (s : State) : readState s .status = .word32 (statusWord s) := rfl

@[simp] theorem readState_txMeta (s : State) : readState s .txMeta = .frameInfo s.txMeta := rfl

end Sys2Proof.Machine
end

