-- ==== Sys2Proof/Laws/Datapath.lean ====
section
/-! SUPPORT. The entry checks of the stage commands and the shapes of what the datapaths build. -/

namespace Sys2Proof.Machine

theorem alphabet_b (p : Params) (sch : Scheme) :
    (alphabet p sch).b = match sch with | .fsk8 => 3 | .qam16 => 4 | .psk8 => 3 := by
  cases sch <;> rfl

theorem alphabet_m (p : Params) (sch : Scheme) :
    (alphabet p sch).m = match sch with | .fsk8 => 8 | .qam16 => 16 | .psk8 => 8 := by
  cases sch <;> rfl

theorem alphabet_m_le (p : Params) (sch : Scheme) : (alphabet p sch).m ≤ 16 := by
  cases sch <;> simp [alphabet, fsk8Alphabet, qam16Alphabet, psk8Alphabet]

theorem alphabet_b_pos (p : Params) (sch : Scheme) : 0 < (alphabet p sch).b := by
  cases sch <;> simp [alphabet, fsk8Alphabet, qam16Alphabet, psk8Alphabet]

theorem alphabet_m_pos (p : Params) (sch : Scheme) : 0 < (alphabet p sch).m := by
  cases sch <;> simp [alphabet, fsk8Alphabet, qam16Alphabet, psk8Alphabet]

/-- FRAME passes its checks exactly with a scheme and a non-empty input of zeros and ones. -/
theorem frameChecks_ok_iff (s : State) (a : Alphabet) :
    frameChecks s = .ok a ↔ ∃ sch, s.scheme = some sch ∧ a = alphabet s.params sch ∧ s.inBits ≠ [] ∧
      s.inBits.all isBitElement = true := by
  simp [frameChecks, currentAlphabet_bind_ok, require_bind_ok, pure, Except.pure]
  grind

/-- MOD passes its checks exactly with a scheme and a non-empty frame of whole groups. -/
theorem modChecks_ok_iff (s : State) (a : Alphabet) :
    modChecks s = .ok a ↔ ∃ sch, s.scheme = some sch ∧ a = alphabet s.params sch ∧ s.framed ≠ [] ∧
      s.framed.length % (alphabet s.params sch).b = 0 := by
  simp [modChecks, currentAlphabet_bind_ok, require_bind_ok, pure, Except.pure]
  grind

/-- DET passes its checks exactly with a scheme, a row, a padding below B where it is known, and rows of M finite
components. -/
theorem detChecks_ok_iff (s : State) (a : Alphabet) :
    detChecks s = .ok a ↔ ∃ sch, s.scheme = some sch ∧ a = alphabet s.params sch ∧ s.rxIn ≠ [] ∧
      (s.padValid = true → s.pad.toNat < (alphabet s.params sch).b) ∧
      (s.rxIn.all fun row => row.length == (alphabet s.params sch).m) = true ∧
      (s.rxIn.all fun row => row.all numIsFinite) = true := by
  simp [detChecks, currentAlphabet_bind_ok, require_bind_ok, pure, Except.pure]
  grind

/-- The first check of FRAME that fails (42_modulator.md R200). -/
theorem frameChecks_error_iff (s : State) (e : BlockError) :
    frameChecks s = .error e ↔ (s.scheme = none ∧ e = .unsupportedScheme) ∨
      (s.scheme ≠ none ∧ (s.inBits = [] ∨ s.inBits.all isBitElement = false) ∧ e = .malformedBitstream) := by
  cases hs : s.scheme <;> simp [frameChecks, currentAlphabet_bind_error, require_bind_error, pure, Except.pure, hs]
  grind

/-- The first check of MOD that fails (42_modulator.md R203). -/
theorem modChecks_error_iff (s : State) (e : BlockError) :
    modChecks s = .error e ↔ (s.scheme = none ∧ e = .unsupportedScheme) ∨
      ∃ sch, s.scheme = some sch ∧ (s.framed = [] ∨ s.framed.length % (alphabet s.params sch).b ≠ 0) ∧
        e = .malformedBitstream := by
  cases hs : s.scheme <;> simp [modChecks, currentAlphabet_bind_error, require_bind_error, pure, Except.pure, hs]
  grind

/-- The first check of DET that fails (43_detector.md R241). -/
theorem detChecks_error_iff (s : State) (e : BlockError) :
    detChecks s = .error e ↔ (s.scheme = none ∧ e = .unsupportedScheme) ∨
      ∃ sch, s.scheme = some sch ∧
        (((s.rxIn = [] ∨ (s.padValid = true ∧ (alphabet s.params sch).b ≤ s.pad.toNat)) ∧ e = .malformedBitstream) ∨
          (s.rxIn ≠ [] ∧ ¬(s.padValid = true ∧ (alphabet s.params sch).b ≤ s.pad.toNat) ∧
            (((s.rxIn.all fun row => row.length == (alphabet s.params sch).m) = false ∧ e = .lengthMismatch) ∨
              ((s.rxIn.all fun row => row.length == (alphabet s.params sch).m) = true ∧
                (s.rxIn.all fun row => row.all numIsFinite) = false ∧ e = .nonFiniteSample)))) := by
  cases hs : s.scheme <;> simp [detChecks, currentAlphabet_bind_error, require_bind_error, pure, Except.pure, hs]
  grind

@[simp] theorem onehot_length (m i : Nat) (amp : Binary64) : (onehot m i amp).length = m := by simp [onehot]

@[simp] theorem chunks_length (b : Nat) (xs : List Bit) : (chunks b xs).length = xs.length / b := by simp [chunks]

@[simp] theorem patOf_length (b n : Nat) : (patOf b n).length = b := by simp [patOf]

theorem mapSymbol_fst (a : Alphabet) (amp : Binary64) (g : Pattern) :
    (mapSymbol a amp g).1 = onehot a.m (a.bitsToIndex g) amp := rfl

theorem mapSymbol_snd (a : Alphabet) (amp : Binary64) (g : Pattern) :
    (mapSymbol a amp g).2 = a.indexToPoint (a.bitsToIndex g) := rfl

/-- The scan answers the best candidate so far or one of those still to come. -/
theorem leastFrom_cases {α : Type} (lt : α → α → Bool) (best : Nat) (dbest : α) (next : Nat) (ds : List α) :
    leastFrom lt best dbest next ds = best ∨
      (next ≤ leastFrom lt best dbest next ds ∧ leastFrom lt best dbest next ds < next + ds.length) := by
  induction ds generalizing best dbest next with
  | nil => exact .inl rfl
  | cons d ds ih =>
    simp only [leastFrom, List.length_cons]
    split
    · rcases ih next d (next + 1) with h | h <;> omega
    · rcases ih best dbest (next + 1) with h | h <;> omega

theorem leastIndex_lt {α : Type} (lt : α → α → Bool) (ds : List α) (h : ds ≠ []) : leastIndex lt ds < ds.length := by
  cases ds with
  | nil => exact absurd rfl h
  | cons d ds =>
    simp only [leastIndex, List.length_cons]
    rcases leastFrom_cases lt 0 d 1 ds with h | h <;> omega

/-- The slicer's answer is always a symbol index (43_detector.md R244). -/
theorem slice_lt (m : Nat) (amp : Binary64) (r : Row) (h : 0 < m) : slice m amp r < m := by
  have hne : (List.range m).map (metric m amp r) ≠ [] := by
    simp only [ne_eq, List.map_eq_nil_iff, List.range_eq_nil]
    omega
  simpa [slice] using leastIndex_lt numLt _ hne

end Sys2Proof.Machine
end

