-- ==== Sys2Proof/Laws/Num.lean ====
section
/-! SUPPORT. What each NUM operation answers, by the kinds of its operands. -/

namespace Sys2Proof.Machine

theorem numIsFinite_not_nan {x : Binary64} (h : numIsFinite x = true) : numIsNan x = false := by
  simp only [numIsFinite, numIsNan, decide_eq_true_eq, decide_eq_false_iff_not] at *
  omega

theorem numIsFinite_not_inf {x : Binary64} (h : numIsFinite x = true) : numIsInf x = false := by
  simp only [numIsFinite, numIsInf, decide_eq_true_eq, beq_eq_false_iff_ne] at *
  omega

/-- A number is finite, infinite or a NaN. -/
theorem num_kinds (x : Binary64) : numIsFinite x = true ∨ numIsInf x = true ∨ numIsNan x = true := by
  simp only [numIsFinite, numIsInf, numIsNan, decide_eq_true_eq, beq_iff_eq]
  omega

theorem numAdd_finite {x y : Binary64} (hx : numIsFinite x = true) (hy : numIsFinite y = true) :
    numAdd x y = addFinite x y := by
  simp [numAdd, numIsFinite_not_nan hx, numIsFinite_not_nan hy, numIsFinite_not_inf hx, numIsFinite_not_inf hy]

/-- Infinity plus a finite number is that infinity. -/
theorem numAdd_inf_finite {x y : Binary64} (hx : numIsInf x = true) (hy : numIsFinite y = true) : numAdd x y = x := by
  have hn : numIsNan x = false := by
    simp only [numIsInf, numIsNan, beq_iff_eq, decide_eq_false_iff_not] at *
    omega
  simp [numAdd, hx, hn, numIsFinite_not_nan hy, numIsFinite_not_inf hy]

theorem numMul_finite {x y : Binary64} (hx : numIsFinite x = true) (hy : numIsFinite y = true) :
    numMul x y = numOfParts (numSign x != numSign y)
      (roundUnits (magUnits (numMag x) * magUnits (numMag y)) 1074) := by
  simp [numMul, numIsFinite_not_nan hx, numIsFinite_not_nan hy, numIsFinite_not_inf hx, numIsFinite_not_inf hy]

theorem roundUnits_le_infMag (n k : Nat) : roundUnits n k ≤ infMag := Nat.min_le_right _ _

/-- The parts of a number, put together again and taken apart. -/
theorem numMag_numOfParts (neg : Bool) (mag : Nat) (h : mag < 2 ^ 63) : numMag (numOfParts neg mag) = mag := by
  cases neg <;> simp [numMag, numOfParts, BitVec.toNat_ofNat] <;> omega

theorem numSign_eq (x : Binary64) : numSign x = decide (2 ^ 63 ≤ x.toNat) := by
  simp [numSign, BitVec.msb_eq_decide]

theorem numSign_numOfParts (neg : Bool) (mag : Nat) (h : mag < 2 ^ 63) : numSign (numOfParts neg mag) = neg := by
  rw [numSign_eq]
  cases neg <;> simp [numOfParts, BitVec.toNat_ofNat] <;> omega

theorem numOfParts_self (x : Binary64) : numOfParts (numSign x) (numMag x) = x := by
  apply BitVec.eq_of_toNat_eq
  have := x.isLt
  rw [numSign_eq]
  cases h : decide (2 ^ 63 ≤ x.toNat) <;> simp only [decide_eq_true_eq, decide_eq_false_iff_not] at h <;>
    simp [numOfParts, numMag, BitVec.toNat_ofNat] <;> omega

theorem numMag_lt (x : Binary64) : numMag x < 2 ^ 63 := Nat.mod_lt _ (by decide)

/-! Negation turns the sign and the value, and keeps the magnitude and the kind. -/

@[simp] theorem numMag_numNeg (x : Binary64) : numMag (numNeg x) = numMag x := numMag_numOfParts _ _ (numMag_lt x)

@[simp] theorem numSign_numNeg (x : Binary64) : numSign (numNeg x) = !numSign x := numSign_numOfParts _ _ (numMag_lt x)

@[simp] theorem numUnits_numNeg (x : Binary64) : numUnits (numNeg x) = -numUnits x := by
  cases h : numSign x <;> simp [numUnits, h]

@[simp] theorem numIsFinite_numNeg (x : Binary64) : numIsFinite (numNeg x) = numIsFinite x := by simp [numIsFinite]

@[simp] theorem numIsInf_numNeg (x : Binary64) : numIsInf (numNeg x) = numIsInf x := by simp [numIsInf]

@[simp] theorem numIsNan_numNeg (x : Binary64) : numIsNan (numNeg x) = numIsNan x := by simp [numIsNan]

/-! What ⊖ answers: a NaN of its own, or the sum with the second operand of the other sign. -/

theorem subIsNan_of_finite {x y : Binary64} (hx : numIsFinite x = true) (hy : numIsFinite y = true) :
    subIsNan x y = false := by
  simp [subIsNan, numIsFinite_not_nan hx, numIsFinite_not_nan hy, numIsFinite_not_inf hx]

theorem numSub_eq_freeNan {x y : Binary64} (h : subIsNan x y = true) : numSub x y = freeNanOf .sub x y := if_pos h

theorem numSub_eq_numAdd_numNeg {x y : Binary64} (h : subIsNan x y = false) : numSub x y = numAdd x (numNeg y) := by
  simp [numSub, h]

theorem numSub_finite {x y : Binary64} (hx : numIsFinite x = true) (hy : numIsFinite y = true) :
    numSub x y = addFinite x (numNeg y) :=
  (numSub_eq_numAdd_numNeg (subIsNan_of_finite hx hy)).trans (numAdd_finite hx (by simpa using hy))

end Sys2Proof.Machine
end

