-- ==== Sys2Proof/Laws/PerInstr.lean ====
section
/-! SUPPORT. The statements about every command as syntax, one lemma per constructor. -/

/-- The word of a well-formed command is of its row of the opcode map (30_encoding.md R109). -/
def Sys2Proof.Laws.EncodeMatchesRow.Statement (i : Sys2Proof.Instr) : Prop :=
  Sys2Proof.wellFormed i = true →
    ∃ r ∈ Sys2Proof.opcodeMap, r.mnemonic = Sys2Proof.mnemonicOf i ∧ r.covers (Sys2Proof.encode i) = true

namespace Sys2Proof.Laws.EncodeMatchesRow

theorem nop : Statement .nop := fun _ => by decide

theorem setcfg (sch : Option Scheme) : Statement (.setcfg sch) := fun _ => by
  cases sch with
  | none => decide
  | some s => cases s <;> decide

theorem setamp (sel : AmpSel) : Statement (.setamp sel) := fun _ => by cases sel <;> decide

theorem setbpc (v : Bool) : Statement (.setbpc v) := fun _ => by cases v <;> decide

theorem setpad (v : Bool) (padv : Nat) : Statement (.setpad v padv) := fun h => by
  have hp : padv < 4 := by simpa [wellFormed] using h
  interval_cases padv <;> cases v <;> decide

theorem frame : Statement .frame := fun _ => by decide

theorem mod : Statement .mod := fun _ => by decide

theorem det : Statement .det := fun _ => by decide

theorem loop : Statement .loop := fun _ => by decide

theorem clrerr : Statement .clrerr := fun _ => by decide

theorem flush (ci cf cr : Bool) : Statement (.flush ci cf cr) := fun _ => by
  cases ci <;> cases cf <;> cases cr <;> decide

end Sys2Proof.Laws.EncodeMatchesRow
end

