-- ==== Sys2Proof/Tests/Slice0.lean ====
section
/-! SUPPORT. Tests: words written out from 30_encoding.md R100 to R112, vectors of 95_test_vectors.md, and for each
statement with hypotheses a state and operands that meet them all. -/

namespace Sys2Proof.Machine.Tests

/-- The next state of an outcome. -/
def nextOf : Result → Option State
  | .next s => some s
  | .fault _ => none
  | .refused _ => none

/-- +infinity. -/
def infNum : Binary64 := 0x7FF0000000000000#64

/-- What a test looks at in the next state of a command. -/
def after {α : Type} (i : Instr) (s : State) (look : State → α) : Option α := (nextOf (exec i s)).map look

/-! ### Well-formedness: R105, PADV is two bits -/

theorem test_wellFormed_refuses_padv_4 : wellFormed (.setpad true 4) = false := by decide
theorem test_wellFormed_takes_padv_3 : wellFormed (.setpad true 3) = true := by decide

/-! ### Decoding: OPC, ARG, RSV bit by bit (R100, R102 to R109) -/

theorem test_decode_nop : decode 0b00000000000000000000000000000000#32 = .ok .nop := by decide
theorem test_decode_setcfg : decode 0b00010010000000000000000000000000#32 = .ok (.setcfg (some .psk8)) := by decide
theorem test_decode_setcfg_none : decode 0b00010011000000000000000000000000#32 = .ok (.setcfg none) := by decide
theorem test_decode_setamp : decode 0b00100001000000000000000000000000#32 = .ok (.setamp .rx) := by decide
theorem test_decode_setbpc : decode 0b00110001000000000000000000000000#32 = .ok (.setbpc true) := by decide
theorem test_decode_setpad : decode 0b01000101000000000000000000000000#32 = .ok (.setpad true 2) := by decide
theorem test_decode_frame : decode 0b01010000000000000000000000000000#32 = .ok .frame := by decide
theorem test_decode_mod : decode 0b01100000000000000000000000000000#32 = .ok .mod := by decide
theorem test_decode_det : decode 0b01110000000000000000000000000000#32 = .ok .det := by decide
theorem test_decode_loop : decode 0b10000000000000000000000000000000#32 = .ok .loop := by decide
theorem test_decode_clrerr : decode 0b10010000000000000000000000000000#32 = .ok .clrerr := by decide
theorem test_decode_flush : decode 0b10100100000000000000000000000000#32 = .ok (.flush false false true) := by decide

/-- ENC-2, ENC-3, ENC-8, ENC-10, ENC-12, ENC-16, ENC-21, ENC-24, ENC-27, ENC-28, ENC-31: Illegal words. -/
theorem test_decode_illegal :
    decode 0x00000001#32 = .error .reservedField ∧ decode 0x01000000#32 = .error .undefinedArgument ∧
    decode 0x14000000#32 = .error .undefinedArgument ∧ decode 0x22000000#32 = .error .undefinedArgument ∧
    decode 0x32000000#32 = .error .undefinedArgument ∧ decode 0x48000000#32 = .error .undefinedArgument ∧
    decode 0x78000000#32 = .error .undefinedArgument ∧ decode 0x9000FF00#32 = .error .reservedField ∧
    decode 0xA8000000#32 = .error .undefinedArgument ∧ decode 0xB0000000#32 = .error .reservedOpcode ∧
    decode 0xFFFFFFFF#32 = .error .reservedField := by decide

/-- The words of R112 for the commands with fields. -/
theorem test_encode_words :
    encode (.setcfg (some .qam16)) = 0x11000000#32 ∧ encode (.setamp .tx) = 0x20000000#32 ∧
    encode (.setbpc false) = 0x30000000#32 ∧ encode (.setpad true 1) = 0x43000000#32 ∧
    encode (.flush true true true) = 0xA7000000#32 := by decide

theorem test_decodeTableWord : decodeTableWord 32 0x45000000 = some (.setpad true 2) := by decide

/-- ENC-31, then ENC-28: an Illegal word takes the error path; the step that follows the fetch runs it. -/
theorem test_step_illegal :
    (nextOf (step (State.reset.withFetchWord 32 0xFFFFFFFF))).map statusWord = some 0x00000105#32 := by decide

/-- ENC-5. -/
theorem test_step_setcfg :
    (nextOf (step (State.reset.withFetchWord 32 0x11000000))).map (·.scheme) = some (some .qam16) := by decide

/-! ### Control commands (section 2.2) -/

/-- A state of FSK8 with the given STATUS. -/
def withStatus (code : BitVec 4) (errSeen : Bool) : State :=
  { State.reset with scheme := some .fsk8, code := code, errSeen := errSeen }

/-- CTL-1. -/
theorem test_nop : after .nop (withStatus 3#4 true) statusWord = some 0x00000100#32 := by decide

/-- CTL-2. -/
theorem test_setcfg_none :
    after (.setcfg none) { State.reset with scheme := some .psk8 } (fun t => (t.scheme, statusWord t)) =
      some (some .psk8, 0x00000101#32) := by decide

/-- CTL-4. -/
theorem test_clrerr : after .clrerr (withStatus 4#4 true) statusWord = some 0#32 := by decide

/-- CTL-5. -/
theorem test_flush_framed :
    after (.flush false true false) { State.reset with inBits := [1#8, 7#8], framed := [false, true, true], rxIn := [[]] }
      (fun t => (t.inBits, t.framed, t.rxIn)) = some ([1#8, 7#8], [], [[]]) := by decide

/-- CTL-7. -/
theorem test_setbpc_present :
    after (.setbpc true) { State.reset with data := 0xDEADBEEF00000008#64 } (fun t => (t.bpc, t.bpcValid)) =
      some (8#32, true) := by decide

/-- CTL-8. -/
theorem test_setbpc_absent :
    after (.setbpc false) { State.reset with bpc := 8#32, bpcValid := true } (fun t => (t.bpc, t.bpcValid)) =
      some (0#32, false) := by decide

/-- CTL-9. -/
theorem test_setpad : after (.setpad false 2) State.reset (fun t => (t.pad, t.padValid)) = some (2#2, false) := by decide

/-- AMP-9 and AMP-11: the smallest subnormal and the largest finite value are accepted. -/
theorem test_setamp_accepts :
    after (.setamp .rx) { State.reset with data := 1#64 } (fun t => (t.ampRx, t.code)) = some (1#64, 0#4) ∧
    after (.setamp .tx) { State.reset with data := 0x7FEFFFFFFFFFFFFF#64 } (fun t => (t.ampTx, t.code)) =
      some (0x7FEFFFFFFFFFFFFF#64, 0#4) := by decide

/-- AMP-3 to AMP-8: both zeros, a negative value, the infinities and a NaN are refused. -/
theorem test_setamp_refuses :
    [0x0000000000000000#64, 0x8000000000000000#64, 0xBFF0000000000000#64, 0x7FF0000000000000#64,
      0xFFF0000000000000#64, 0x7FF8000000000000#64].map
        (fun d => after (.setamp .rx) { State.reset with data := d } (fun t => (t.ampRx, statusWord t))) =
      List.replicate 6 (some (0x3FF0000000000000#64, 0x00000106#32)) := by decide

/-! ### Transmit datapath (sections 2.4 to 2.6) -/

/-- FRM-4. -/
theorem test_frame_pads :
    after .frame { State.reset with scheme := some .fsk8, inBits := [1#8, 0#8, 1#8, 1#8] }
      (fun t => (t.framed, t.pad, t.padValid, t.inBits)) =
      some ([true, false, true, true, false, false], 2#2, true, []) := by decide

/-- FRM-E3. -/
theorem test_frame_refuses_two :
    after .frame { State.reset with scheme := some .fsk8, inBits := [1#8, 2#8] } (fun t => (t.inBits, statusWord t)) =
      some ([1#8, 2#8], 0x00000103#32) := by decide

/-- MOD-2. -/
theorem test_mod_amplitude :
    after .mod { State.reset with scheme := some .fsk8, ampTx := 0x4004000000000000#64, framed := [true, false, false] }
      (fun t => (t.txOut, t.txPts)) =
      some ([[0#64, 0#64, 0#64, 0#64, 0#64, 0#64, 0x4004000000000000#64, 0#64]], [.freq 0x40BB580000000000#64]) := by
  decide +kernel

/-- MOD-5. -/
theorem test_mod_meta :
    after .mod { State.reset with
        scheme := some .qam16
        framed := [false, true, false, false, true, true, true, true, false, false, false, false]
        pad := 3#2, padValid := true, bpc := 8#32, bpcValid := true } (·.txMeta) =
      some { metaValid := true, scheme := 1#2, m := 16, padValid := true, pad := 3#2, bpcValid := true, bpc := 8#32,
             numSymbols := 3 } := by decide

/-- LOOP-1. -/
theorem test_loop_empty : after .loop State.reset statusWord = some 0x00000103#32 := by decide

/-- LOOP-4, behind a row already in RX_IN (R206). -/
theorem test_loop_appends :
    after .loop { State.reset with txOut := [[1#64]], rxIn := [[2#64]] } (fun t => (t.rxIn, t.txOut)) =
      some ([[2#64], [1#64]], [[1#64]]) := by decide

/-! ### Receive datapath (section 2.7) -/

/-- DET-9: the order of summation decides the index. The row is 0.6, 0.9, 0.15, 0.33, 0.2, 0.45, 0.9, 0.2. -/
theorem test_det_summation_order :
    after .det { State.reset with scheme := some .fsk8, rxIn := [[0x3FE3333333333333#64, 0x3FECCCCCCCCCCCCD#64,
        0x3FC3333333333333#64, 0x3FD51EB851EB851F#64, 0x3FC999999999999A#64, 0x3FDCCCCCCCCCCCCD#64,
        0x3FECCCCCCCCCCCCD#64, 0x3FC999999999999A#64]] } (fun t => (t.rxIdx, t.rxSymbits, t.outBits)) =
      some ([6], [[true, false, false]], [true, false, false]) := by decide +kernel

/-- DET-12a: two bits of padding removed; PAD and PAD_VALID stay. -/
theorem test_det_unpads :
    after .det { State.reset with
        scheme := some .fsk8, pad := 2#2, padValid := true
        rxIn := [onehot 8 7 numOne, onehot 8 6 numOne] } (fun t => (t.rxIdx, t.outBits, t.pad, t.rxIn)) =
      some ([7, 6], [true, false, true, true], 2#2, []) := by decide +kernel

/-- DET-E3 and DET-E5: the order of DET's checks. -/
theorem test_det_check_order :
    after .det { State.reset with scheme := some .fsk8, pad := 3#2, padValid := true, rxIn := [[0#64], [infNum]] }
      statusWord = some 0x00000103#32 ∧
    after .det { State.reset with scheme := some .fsk8, rxIn := [infNum :: List.replicate 7 0#64, [0#64]] }
      statusWord = some 0x00000104#32 ∧
    after .det { State.reset with scheme := some .fsk8, rxIn := [infNum :: List.replicate 7 0#64] }
      statusWord = some 0x00000107#32 := by decide

/-- DET-9's metrics d_1 and d_6. -/
theorem test_metric_bits :
    [1, 6].map (metric 8 numOne [0x3FE3333333333333#64, 0x3FECCCCCCCCCCCCD#64, 0x3FC3333333333333#64,
      0x3FD51EB851EB851F#64, 0x3FC999999999999A#64, 0x3FDCCCCCCCCCCCCD#64, 0x3FECCCCCCCCCCCCD#64,
      0x3FC999999999999A#64]) = [0x3FF9809D495182AA#64, 0x3FF9809D495182A9#64] := by decide +kernel

end Sys2Proof.Machine.Tests
end

