-- ==== Sys2Proof/Tests/Witnesses.lean ====
section
/-! SUPPORT. For each statement with hypotheses, a state and operands that meet all of them together, at the boundary
values of its clauses. -/

namespace Sys2Proof.Machine.Tests

/-- Configured for FSK8. -/
def fsk8State : State := { State.reset with scheme := some .fsk8 }

/-- Configured for QAM16. -/
def qam16State : State := { State.reset with scheme := some .qam16 }

/-- The reference model but for its capacities. -/
def bounded (maxBits maxRows : Nat) : Params :=
  { referenceParams with maxInBits := some maxBits, maxRxRows := some maxRows }

/-- A row of M zeros. -/
def zeroRow (m : Nat) : Row := List.replicate m numZero

/-- The reference model's parameters meet their constraints. -/
theorem referenceParams_ok : paramsOk referenceParams = true := by decide +kernel

/-- Finiteness of every component, from the Bool check. -/
theorem finite_of_all {row : Row} (h : row.all numIsFinite = true) : ∀ x ∈ row, numIsFinite x = true := by
  simpa using h

/-- Finiteness of every component of every row, from the Bool check. -/
theorem rows_finite_of_all {rows : List Row} (h : (rows.all fun row => row.all numIsFinite) = true) :
    ∀ row ∈ rows, ∀ x ∈ row, numIsFinite x = true := by
  simpa using h

theorem witness_IllegalWordsTakeTheErrorPath :
    (∀ i, decode 0xB0000000#32 ≠ .ok i) ∧ (∀ i, decode 0x70000001#32 ≠ .ok i) ∧ (∀ i, decode 0x78000000#32 ≠ .ok i) := by
  have h1 : decode 0xB0000000#32 = .error .reservedOpcode := by decide
  have h2 : decode 0x70000001#32 = .error .reservedField := by decide
  have h3 : decode 0x78000000#32 = .error .undefinedArgument := by decide
  simp [h1, h2, h3]

theorem witness_StepRunsTheDecodedCommand :
    ({ fsk8State with hostQueue := [.transaction (.issue 0x50000000#32)] } : State).hostQueue =
      .transaction (.issue 0x50000000#32) :: [] ∧ decode 0x50000000#32 = .ok .frame := by decide

theorem witness_StepTakesTheOldestEvent :
    ({ fsk8State with hostQueue := [.reset, .transaction (.read .status)] } : State).hostQueue =
      .reset :: [.transaction (.read .status)] := by decide

theorem witness_PlacedCommandRunsNext : wellFormed (.setpad true 3) = true ∧ wellFormed .det = true := by decide

theorem witness_IdleBlockWaits : State.reset.hostQueue = [] := by decide

theorem witness_PushbitAppendsUnchecked :
    State.reset.params.maxInBits = none ∧
    (({ State.reset with params := bounded 2 2, inBits := [1#8] } : State).params.maxInBits = some 2 ∧ 1 < 2) ∧
    ({ State.reset with params := bounded 2 2, inBits := [1#8, 7#8] } : State).params.maxInBits = some 2 := by decide

theorem witness_PushrowAppendsUnchecked :
    State.reset.params.maxRxRows = none ∧
    (({ State.reset with params := bounded 2 2, rxIn := [[]] } : State).params.maxRxRows = some 2 ∧ 1 < 2) ∧
    ({ State.reset with params := bounded 2 2, rxIn := [[], []] } : State).params.maxRxRows = some 2 := by decide

theorem witness_NopWritesOnlyCode : (1#32).toNat / 2 ^ 28 = 0 ∧ 1#32 ≠ 0#32 := by decide

/-- Every premise `decode c = .ok …` of the control statements, at a word of R112. -/
theorem witness_field_premises :
    decode 0x13000000#32 = .ok (.setcfg none) ∧ decode 0x21000000#32 = .ok (.setamp .rx) ∧
    decode 0x31000000#32 = .ok (.setbpc true) ∧ decode 0x47000000#32 = .ok (.setpad true 3) ∧
    decode 0xA7000000#32 = .ok (.flush true true true) := by decide

theorem witness_SetampSetsALegalAmplitude :
    (numIsFinite 1#64 = true ∧ numLt numZero 1#64 = true) ∧
    (numIsFinite 0x7FEFFFFFFFFFFFFF#64 = true ∧ numLt numZero 0x7FEFFFFFFFFFFFFF#64 = true) ∧
    ¬(numIsFinite 0#64 = true ∧ numLt numZero 0#64 = true) ∧
    ¬(numIsFinite infNum = true ∧ numLt numZero infNum = true) := by decide

theorem witness_SetpadSetsThePadding : (0 : Nat) < 4 ∧ 3 < 4 := by decide

theorem witness_ClrerrClearsStatus :
    exec .clrerr (withStatus 4#4 true) = .next (withStatus 0#4 false) ∧ (withStatus 4#4 true).errSeen = true ∧
      (withStatus 0#4 false).errSeen = false := ⟨rfl, rfl, rfl⟩

/-- FRAME completes on one bit (padding B - 1) and on B bits (no padding). -/
theorem witness_FrameBuildsThePaddedFrame :
    (∃ s : State, s.scheme = some .qam16 ∧ s.inBits ≠ [] ∧ (∀ v ∈ s.inBits, v = 0#8 ∨ v = 1#8) ∧ s.inBits.length = 1) ∧
    (∃ s : State, s.scheme = some .qam16 ∧ s.inBits ≠ [] ∧ (∀ v ∈ s.inBits, v = 0#8 ∨ v = 1#8) ∧ s.inBits.length = 4) :=
  ⟨⟨{ qam16State with inBits := [1#8] }, by decide⟩, ⟨{ qam16State with inBits := [1#8, 0#8, 0#8, 1#8] }, by decide⟩⟩

theorem witness_FramePaddingInvariant :
    ∃ s : State, s.scheme = some .fsk8 ∧ s.inBits ≠ [] ∧ ∀ v ∈ s.inBits, v = 0#8 ∨ v = 1#8 :=
  ⟨{ fsk8State with inBits := [1#8] }, by decide⟩

theorem witness_FrameChecksInOrder :
    State.reset.scheme = none ∧ (fsk8State.scheme ≠ none ∧ fsk8State.inBits = []) ∧
    (∃ s : State, s.scheme ≠ none ∧ ∃ v ∈ s.inBits, v ≠ 0#8 ∧ v ≠ 1#8) :=
  ⟨by decide, by decide, { fsk8State with inBits := [1#8, 2#8] }, by decide⟩

theorem witness_ModBuildsTheEnergyVectors :
    ∃ s : State, s.scheme = some .fsk8 ∧ s.framed ≠ [] ∧ s.framed.length % (alphabet s.params .fsk8).b = 0 :=
  ⟨{ fsk8State with framed := [true, false, true] }, by decide⟩

theorem witness_ModKeepsTheBitOrder :
    ∃ s : State, s.scheme = some .psk8 ∧ s.framed ≠ [] ∧ s.framed.length % (alphabet s.params .psk8).b = 0 :=
  ⟨{ State.reset with scheme := some .psk8, framed := [false, true, false, true, true, true] }, by decide⟩

theorem witness_ModChecksInOrder :
    State.reset.scheme = none ∧ (fsk8State.scheme ≠ none ∧ fsk8State.framed = []) ∧
    (∃ s : State, s.scheme = some .qam16 ∧ s.framed.length % (alphabet s.params .qam16).b ≠ 0) :=
  ⟨by decide, by decide, { qam16State with framed := [true, false, true] }, by decide⟩

/-- LOOP up to the last place of RX_IN, with nothing to send, and one row past. -/
theorem witness_LoopAppendsTheTransmitRows :
    (∃ s : State, s.txOut ≠ [] ∧ s.params.maxRxRows = none) ∧
    (∃ s : State, s.txOut ≠ [] ∧ ∃ n, s.params.maxRxRows = some n ∧ s.rxIn.length + s.txOut.length = n) ∧
    State.reset.txOut = [] ∧
    (∃ s : State, s.txOut ≠ [] ∧ ∃ n, s.params.maxRxRows = some n ∧ n < s.rxIn.length + s.txOut.length) :=
  ⟨⟨{ State.reset with txOut := [[]] }, by decide⟩,
   ⟨{ State.reset with txOut := [[]], rxIn := [[]], params := bounded 9 2 }, by decide, 2, by decide⟩, by decide,
   ⟨{ State.reset with txOut := [[]], rxIn := [[], []], params := bounded 9 2 }, by decide, 2, by decide⟩⟩

theorem witness_OnehotComponents : (0 : Nat) < 8 ∧ 7 < 8 := by decide

theorem witness_CommandsAreReadByMatchMaskAndField : 0xB ≤ (0xB0000000#32).toNat / 2 ^ 28 := by decide

theorem witness_OnehotEnergyIsTheAmplitudeSquared : (7 : Nat) < 8 ∧ numIsFinite numOne = true := by decide

/-- DET completes with the largest padding, B - 1, and with the padding unknown. -/
theorem witness_DetDetectsEveryRow :
    (∃ s : State, s.scheme = some .qam16 ∧ s.rxIn ≠ [] ∧
      (s.padValid = true → s.pad.toNat < (alphabet s.params .qam16).b) ∧ s.padValid = true ∧ s.pad = 3#2 ∧
      (∀ row ∈ s.rxIn, row.length = (alphabet s.params .qam16).m) ∧
      (∀ row ∈ s.rxIn, ∀ x ∈ row, numIsFinite x = true)) ∧
    (∃ s : State, s.scheme = some .fsk8 ∧ s.rxIn ≠ [] ∧
      (s.padValid = true → s.pad.toNat < (alphabet s.params .fsk8).b) ∧ s.padValid = false ∧ s.pad = 3#2 ∧
      (∀ row ∈ s.rxIn, row.length = (alphabet s.params .fsk8).m) ∧
      (∀ row ∈ s.rxIn, ∀ x ∈ row, numIsFinite x = true)) :=
  ⟨⟨{ qam16State with rxIn := [zeroRow 16], pad := 3#2, padValid := true }, by decide, by decide, by decide, by decide,
      by decide, by decide, rows_finite_of_all (by decide)⟩,
   ⟨{ fsk8State with rxIn := [zeroRow 8], pad := 3#2 }, by decide, by decide, by decide, by decide, by decide,
      by decide, rows_finite_of_all (by decide)⟩⟩

theorem witness_DetRemovesThePadding :
    ∃ s : State, paramsOk s.params = true ∧ s.scheme = some .qam16 ∧ s.rxIn ≠ [] ∧ s.padValid = true ∧
      s.pad.toNat < (alphabet s.params .qam16).b ∧
      (∀ row ∈ s.rxIn, row.length = (alphabet s.params .qam16).m) ∧
      (∀ row ∈ s.rxIn, ∀ x ∈ row, numIsFinite x = true) :=
  ⟨{ qam16State with rxIn := [zeroRow 16], pad := 3#2, padValid := true }, referenceParams_ok, by decide, by decide,
    by decide, by decide, by decide, rows_finite_of_all (by decide)⟩

/-- A padding not below B; a row of another width; a row with an infinity. -/
theorem witness_DetChecksInOrder :
    State.reset.scheme = none ∧ (fsk8State.scheme = some .fsk8 ∧ fsk8State.rxIn = []) ∧
    (∃ s : State, s.scheme = some .fsk8 ∧ s.padValid = true ∧ (alphabet s.params .fsk8).b ≤ s.pad.toNat) ∧
    (∃ s : State, s.scheme = some .fsk8 ∧ (s.padValid = true → s.pad.toNat < (alphabet s.params .fsk8).b) ∧
      ∃ row ∈ s.rxIn, row.length ≠ (alphabet s.params .fsk8).m) ∧
    (∃ s : State, s.scheme = some .fsk8 ∧ (s.padValid = true → s.pad.toNat < (alphabet s.params .fsk8).b) ∧
      (∀ row ∈ s.rxIn, row.length = (alphabet s.params .fsk8).m) ∧
      ∃ row ∈ s.rxIn, ∃ x ∈ row, numIsFinite x = false) :=
  ⟨by decide, by decide, ⟨{ fsk8State with pad := 3#2, padValid := true }, by decide⟩,
   ⟨{ fsk8State with pad := 2#2, padValid := true, rxIn := [zeroRow 16] }, by decide⟩,
   ⟨{ fsk8State with rxIn := [infNum :: zeroRow 7] }, by decide, by decide, by decide, infNum :: zeroRow 7, by decide,
      infNum, by decide, by decide⟩⟩

theorem witness_MetricIsTheAscendingSum :
    (zeroRow 8).length = 8 ∧ numIsFinite numOne = true ∧ ∀ x ∈ zeroRow 8, numIsFinite x = true :=
  ⟨by decide, by decide, finite_of_all (by decide)⟩

theorem witness_SlicerPicksTheLowestLeastMetric :
    (0 < 8 ∧ (onehot 8 7 numOne).length = 8 ∧ numIsFinite numOne = true ∧
      ∀ x ∈ onehot 8 7 numOne, numIsFinite x = true) ∧ slice 8 numOne (onehot 8 7 numOne) = 7 :=
  ⟨⟨by decide, by decide, by decide, finite_of_all (by decide)⟩, by decide +kernel⟩

theorem witness_ExactSlicerPicksTheLargestComponent : (0 : Rat) < 1 ∧ ([1, 2] : List Rat) ≠ [] := by
  simp

theorem witness_NoiselessRoundTripRecoversTheInput :
    ∃ s : State, paramsOk s.params = true ∧ s.scheme = some .qam16 ∧ s.inBits ≠ [] ∧
      (∀ v ∈ s.inBits, v = 0#8 ∨ v = 1#8) ∧ s.rxIn = [] ∧ s.ampRx = s.ampTx ∧ amplitudeLegal s.ampTx = true ∧
      numMul s.ampTx s.ampTx ≠ numZero ∧
      fits s.params.maxRxRows
        ((s.inBits.length + (alphabet s.params .qam16).b - 1) / (alphabet s.params .qam16).b) = true :=
  ⟨{ qam16State with inBits := [0#8, 1#8, 0#8, 0#8, 1#8] }, referenceParams_ok, by decide +kernel⟩

theorem witness_AlphabetsRoundTrip : paramsOk referenceParams = true := referenceParams_ok

/-- A tie of the rounding: 2^54 + 2 lies halfway between two magnitudes, and the even one is taken. -/
theorem witness_RoundingIsToNearestTiesToEven :
    roundUnits (2 ^ 54 + 2) 0 < infMag ∧ (2 ^ 53 + 2 ^ 52 + 1) < infMag ∧ 2 ^ 53 + 2 ^ 52 + 1 ≠ roundUnits (2 ^ 54 + 2) 0 ∧
      roundUnits ((2 ^ 54 - 1) * 2 ^ 2044) 0 = infMag ∧ roundUnits ((2 ^ 54 - 1) * 2 ^ 2044 - 1) 0 = infMag - 1 := by
  decide +kernel

theorem witness_NanResultsAreNans :
    numIsNan 0x7FF8000000000000#64 = true ∧
      (numIsInf infNum = true ∧ numIsInf 0xFFF0000000000000#64 = true ∧ numSign infNum ≠ numSign 0xFFF0000000000000#64) ∧
      (numIsInf infNum = true ∧ numSign infNum = numSign infNum) := by
  decide

/-- The finite clauses at 1.0 and itself: a sum that is no zero and a difference that is; the ends of the finite range;
the infinities. -/
theorem witness_ArithmeticRoundsTheExactResultOnce :
    (numIsFinite numOne = true ∧ numUnits numOne + numUnits numOne ≠ 0 ∧ numUnits numOne - numUnits numOne = 0) ∧
    (numIsFinite 0x7FEFFFFFFFFFFFFF#64 = true ∧ numIsFinite 0x8000000000000001#64 = true ∧
      numUnits 0x8000000000000001#64 - numUnits 0x7FEFFFFFFFFFFFFF#64 ≠ 0) ∧
    numUnits 0x8000000000000000#64 + numUnits 0x8000000000000000#64 = 0 ∧
    (numIsInf infNum = true ∧ numIsNan infNum = false ∧ numMag infNum ≠ 0 ∧ numMag numOne ≠ 0) ∧
    (numIsNan 0xFFF0000000000000#64 = false ∧ numSign infNum ≠ numSign 0xFFF0000000000000#64) := by
  decide +kernel

theorem witness_NumbersAreOrderedByTheirValues :
    ((0x7FEFFFFFFFFFFFFF#64 : Binary64).extractLsb' 52 11).toNat ≠ 0x7FF ∧ infNum = 0x7FF0000000000000#64 ∧
      numLt 0x8000000000000001#64 0x0000000000000000#64 = true := by decide

theorem witness_Qam16FunctionsComeFromTheTable :
    paramsOk referenceParams = true ∧ [false, true, false, false].length = 4 ∧ 15 < 16 :=
  ⟨referenceParams_ok, by decide⟩

/-- A command that completes, and one that takes the error path. -/
theorem witness_CompletionWritesCodeZero :
    (∃ t, exec .nop (withStatus 3#4 true) = .next t ∧ t.code = 0#4) ∧ (∃ t, exec .frame fsk8State = .next t ∧ t.code ≠ 0#4) :=
  ⟨⟨_, rfl, by decide⟩, ⟨_, rfl, by decide⟩⟩

theorem witness_ErrorsChangeOnlyStatus :
    ∃ t, transact (.issue 0xB0000000#32) fsk8State = .next t ∧ t.code ≠ 0#4 := ⟨_, rfl, by decide⟩

/-- Every code, each raised by some command at some state. -/
theorem witness_EachErrorHasItsCases :
    (∃ t, exec .det State.reset = .next t ∧ t.code = 1#4) ∧ (∃ t, exec .mod fsk8State = .next t ∧ t.code = 3#4) ∧
    (∃ t, exec .det { fsk8State with rxIn := [zeroRow 3] } = .next t ∧ t.code = 4#4) ∧
    (∃ t, exec (.setamp .tx) State.reset = .next t ∧ t.code = 6#4) ∧
    (∃ t, exec .det { fsk8State with rxIn := [infNum :: zeroRow 7] } = .next t ∧ t.code = 7#4) :=
  ⟨⟨_, rfl, by decide⟩, ⟨_, rfl, by decide⟩, ⟨_, rfl, by decide⟩, ⟨_, rfl, by decide⟩, ⟨_, rfl, by decide⟩⟩

theorem witness_EveryRegisterHasItsWriters :
    ∃ t, exec (.setpad true 1) fsk8State = .next t ∧ t.pad = 1#2 := ⟨_, rfl, by decide⟩

theorem witness_EveryEventSequenceIsWorkedOff :
    State.reset.params.maxInBits = none ∧ State.reset.params.maxRxRows = none := by decide

theorem witness_StepKeepsTheInvariant :
    blockInv State.reset = true ∧ blockInv fsk8State = true ∧ ∃ t, step State.reset = .next t :=
  ⟨by decide +kernel, by decide +kernel, _, rfl⟩

end Sys2Proof.Machine.Tests
end

section
/-! The host's writing transactions, WDATA, PUSHBIT and PUSHROW (20_memory.md R73 to R75), and the capacity of the
buffers they append to (R84). -/

namespace Sys2Proof.Machine

/-! ### The capacity of a buffer -/

/-- Below the capacity, or with none, one more entry fits. -/
theorem fits_succ_of_room {capacity : Option Nat} {len : Nat}
    (room : capacity = none ∨ ∃ n, capacity = some n ∧ len < n) : fits capacity (len + 1) = true := by
  obtain rfl | ⟨n, rfl, hlt⟩ := room
  · exact fits_none _
  · exact decide_eq_true (Nat.succ_le_of_lt hlt)

/-- At the capacity no further entry fits. -/
theorem fits_succ_at_capacity (len : Nat) : fits (some len) (len + 1) = false :=
  decide_eq_false (Nat.not_succ_le_self len)

/-! ### The appends on each side of the capacity -/

theorem appendInBits_of_fits {vs : List Element} {s : State}
    (h : fits s.params.maxInBits (s.inBits.length + vs.length) = true) :
    appendInBits vs s = .next { s with inBits := s.inBits ++ vs } := by
  obtain ⟨-, happ⟩ | ⟨hfull, -⟩ := appendInBits_cases (vs := vs) (s := s) rfl
  · exact happ
  · exact absurd h (by simp [hfull])

theorem appendInBits_of_not_fits {vs : List Element} {s : State}
    (h : fits s.params.maxInBits (s.inBits.length + vs.length) = false) :
    appendInBits vs s = .refused .inBitsFull := by
  obtain ⟨hfits, -⟩ | ⟨-, happ⟩ := appendInBits_cases (vs := vs) (s := s) rfl
  · exact absurd h (by simp [hfits])
  · exact happ

theorem appendRxIn_of_fits {rows : List Row} {s : State}
    (h : fits s.params.maxRxRows (s.rxIn.length + rows.length) = true) :
    appendRxIn rows s = .next { s with rxIn := s.rxIn ++ rows } := by
  obtain ⟨-, happ⟩ | ⟨hfull, -⟩ := appendRxIn_cases (rows := rows) (s := s) rfl
  · exact happ
  · exact absurd h (by simp [hfull])

theorem appendRxIn_of_not_fits {rows : List Row} {s : State}
    (h : fits s.params.maxRxRows (s.rxIn.length + rows.length) = false) :
    appendRxIn rows s = .refused .rxInFull := by
  obtain ⟨hfits, -⟩ | ⟨-, happ⟩ := appendRxIn_cases (rows := rows) (s := s) rfl
  · exact absurd h (by simp [hfits])
  · exact happ

/-! ### What each transaction does -/

@[simp] theorem transact_wdata (v : BitVec 64) (s : State) : transact (.wdata v) s = .next { s with data := v } := rfl

@[simp] theorem transact_pushbit (v : Element) (s : State) : transact (.pushbit v) s = appendInBits [v] s := rfl

@[simp] theorem transact_pushrow (row : Row) (s : State) : transact (.pushrow row) s = appendRxIn [row] s := rfl

/-! ### The statements -/

/-- Settles O10. -/
theorem wdataWritesData : Obligations.WdataWritesData := transact_wdata

/-- Settles O11: the append of one element, on each side of the capacity. -/
theorem pushbitAppendsUnchecked : Obligations.PushbitAppendsUnchecked := by
  intro v s
  refine ⟨fun room => ?below, fun full => ?atCapacity⟩ <;> rw [transact_pushbit]
  case below => exact appendInBits_of_fits (fits_succ_of_room room)
  case atCapacity => exact appendInBits_of_not_fits (full ▸ fits_succ_at_capacity s.inBits.length)

/-- Settles O12: the append of one row, on each side of the capacity. -/
theorem pushrowAppendsUnchecked : Obligations.PushrowAppendsUnchecked := by
  intro row s
  refine ⟨fun room => ?below, fun full => ?atCapacity⟩ <;> rw [transact_pushrow]
  case below => exact appendRxIn_of_fits (fits_succ_of_room room)
  case atCapacity => exact appendRxIn_of_not_fits (full ▸ fits_succ_at_capacity s.rxIn.length)

end Sys2Proof.Machine
end

section
/-! The encoding (30_encoding.md): the command word as its three fields, the rows of the opcode map (R109) and what the
decoder reads from each, and the expansions of the pseudo-instructions (R113). -/

namespace Sys2Proof

/-! ### The fields of a command word -/

/-- A command word is its OPC, ARG and RSV fields, in this order (R100). -/
theorem fields_append (c : CommandWord) : opcField c ++ argField c ++ rsvField c = c := by
  have top : opcField c ++ argField c = c.extractLsb' 24 8 := BitVec.extractLsb'_append_extractLsb'_eq_extractLsb' rfl
  rw [top]
  exact BitVec.extractLsb'_append_extractLsb' (w := 8) (len := 24)

theorem word_eq_iff (c d : CommandWord) :
    c = d ↔ opcField c = opcField d ∧ argField c = argField d ∧ rsvField c = rsvField d := by
  refine ⟨fun h => by simp [h], fun ⟨hopc, harg, hrsv⟩ => ?_⟩
  rw [← fields_append c, ← fields_append d, hopc, harg, hrsv]

@[simp] theorem opcField_and (c d : CommandWord) : opcField (c &&& d) = opcField c &&& opcField d :=
  BitVec.extractLsb'_and

@[simp] theorem argField_and (c d : CommandWord) : argField (c &&& d) = argField c &&& argField d :=
  BitVec.extractLsb'_and

@[simp] theorem rsvField_and (c d : CommandWord) : rsvField (c &&& d) = rsvField c &&& rsvField d :=
  BitVec.extractLsb'_and

theorem opcField_toNat (c : CommandWord) : (opcField c).toNat = c.toNat / 2 ^ 28 := by
  have := c.isLt
  simp only [opcField, BitVec.extractLsb'_toNat, Nat.shiftRight_eq_div_pow]
  omega

theorem argField_getLsbD {c : CommandWord} {k : Nat} (hk : k < 4) : (argField c).getLsbD k = c.getLsbD (24 + k) := by
  simp [argField, hk]

theorem argField_extractLsb' {c : CommandWord} {k n : Nat} (hk : k + n ≤ 4) :
    (argField c).extractLsb' k n = c.extractLsb' (24 + k) n := by
  ext j hj
  simp only [BitVec.getElem_extractLsb']
  rw [argField_getLsbD (by omega), Nat.add_assoc]

/-! ### The values of the fields -/

theorem schemeOfCode_eq_iff (b : BitVec 2) (sch : Option Scheme) : schemeOfCode b = sch ↔ b = schemeCode sch := by
  obtain _ | _ | _ | _ := sch <;> revert b <;> decide

theorem ampSelOfBit_eq_iff (b : Bool) (sel : AmpSel) : ampSelOfBit b = sel ↔ (b = true ↔ sel = .rx) := by
  cases sel <;> revert b <;> decide

/-! ### The decoder -/

theorem withClearBits_ok_iff {undefinedBits : Bool} {i j : Instr} :
    withClearBits undefinedBits j = .ok i ↔ undefinedBits = false ∧ j = i := by
  cases undefinedBits <;> simp [withClearBits]

theorem decode_ok_iff {c : CommandWord} {i : Instr} :
    decode c = .ok i ↔ rsvField c = 0#24 ∧ decodeFields (opcField c) (argField c) = .ok i := by
  by_cases h : rsvField c = 0#24 <;> simp [decode, h]

/-- The opcode of a word that decodes is that of its command. -/
theorem toNat_of_decodeFields_ok {opc arg : BitVec 4} {i : Instr} (h : decodeFields opc arg = .ok i) :
    opc.toNat = opcOf i := by
  unfold decodeFields at h
  split at h <;> simp only [withClearBits_ok_iff, reduceCtorEq] at h
  all_goals
    obtain ⟨-, rfl⟩ := h
    assumption

theorem opcOf_lt (i : Instr) : opcOf i < 0xB := by
  cases i <;> simp [opcOf]

/-- The opcodes 0xB and above are reserved (R110). -/
theorem decode_ne_ok_of_reserved {c : CommandWord} (h : 0xB ≤ c.toNat / 2 ^ 28) (i : Instr) : decode c ≠ .ok i := by
  intro hdec
  obtain ⟨-, hfields⟩ := decode_ok_iff.mp hdec
  have hopc : c.toNat / 2 ^ 28 = opcOf i := opcField_toNat c ▸ toNat_of_decodeFields_ok hfields
  have := opcOf_lt i
  omega

/-! ### The rows of the opcode map -/

/-- A row's mask covers OPC and RSV whole, and its match is 0 outside OPC. -/
theorem opcodeMap_fields : ∀ r ∈ opcodeMap,
    (opcField r.mask = 0xF#4 ∧ rsvField r.mask = 0xFFFFFF#24) ∧
      argField r.pattern = 0#4 ∧ rsvField r.pattern = 0#24 := by
  decide

/-- A word is of a row when its opcode is the row's and its reserved bits, in RSV and in ARG, are 0. -/
theorem matches_row_iff {r : OpcodeRow} (hr : r ∈ opcodeMap) (c : CommandWord) :
    c &&& r.mask = r.pattern ↔
      opcField c = opcField r.pattern ∧ argField c &&& argField r.mask = 0#4 ∧ rsvField c = 0#24 := by
  obtain ⟨⟨hopc, hrsv⟩, harg0, hrsv0⟩ := opcodeMap_fields r hr
  have hopc_and : opcField c &&& 0xF#4 = opcField c := BitVec.and_allOnes
  have hrsv_and : rsvField c &&& 0xFFFFFF#24 = rsvField c := BitVec.and_allOnes
  rw [word_eq_iff, opcField_and, argField_and, rsvField_and, hopc, hrsv, harg0, hrsv0, hopc_and, hrsv_and]

/-- The words of a row decode to the command the row's opcode reads, and no other word does. -/
theorem decode_ok_iff_of_row {r : OpcodeRow} (hr : r ∈ opcodeMap) {c : CommandWord} {i j : Instr}
    (hopc : (opcField r.pattern).toNat = opcOf i)
    (reads : decodeFields (opcField r.pattern) (argField c) =
      withClearBits (argField c &&& argField r.mask != 0#4) j) :
    decode c = .ok i ↔ c &&& r.mask = r.pattern ∧ j = i := by
  rw [decode_ok_iff, matches_row_iff hr]
  constructor
  · rintro ⟨hrsv, hdec⟩
    have hrow : opcField c = opcField r.pattern :=
      BitVec.eq_of_toNat_eq ((toNat_of_decodeFields_ok hdec).trans hopc.symm)
    rw [hrow, reads, withClearBits_ok_iff, bne_eq_false_iff_eq] at hdec
    exact ⟨⟨hrow, hdec.1, hrsv⟩, hdec.2⟩
  · rintro ⟨⟨hrow, hclear, hrsv⟩, hread⟩
    rw [hrow, reads, withClearBits_ok_iff, bne_eq_false_iff_eq]
    exact ⟨hrsv, hclear, hread⟩

/-- The row of a command without fields holds one word (R107). -/
theorem decode_ok_iff_of_bare_row {mnemonic : String} {pattern : CommandWord}
    (hr : { mnemonic, pattern, mask := 0xFFFFFFFF#32 } ∈ opcodeMap) {c : CommandWord} {i : Instr}
    (hopc : (opcField pattern).toNat = opcOf i)
    (reads : decodeFields (opcField pattern) (argField c) = withClearBits (argField c != 0#4) i) :
    decode c = .ok i ↔ c &&& 0xFFFFFFFF#32 = pattern := by
  have hand : argField c &&& argField 0xFFFFFFFF#32 = argField c := BitVec.and_allOnes
  exact (decode_ok_iff_of_row hr hopc (by rwa [hand])).trans (and_iff_left rfl)

/-! The ARG bits a command leaves undefined are those under its row's mask. -/

theorem undefinedBits_twoBitField : ∀ arg : BitVec 4, (arg.getLsbD 3 || arg.getLsbD 2) = (arg &&& 0xC#4 != 0#4) := by
  decide

theorem undefinedBits_oneBitField : ∀ arg : BitVec 4, (arg.extractLsb' 1 3 != 0#3) = (arg &&& 0xE#4 != 0#4) := by
  decide

theorem undefinedBits_threeBitFields : ∀ arg : BitVec 4, arg.getLsbD 3 = (arg &&& 0x8#4 != 0#4) := by
  decide

/-! ### What the rows with fields read -/

theorem decode_setcfg_iff (c : CommandWord) (sch : Option Scheme) :
    decode c = .ok (.setcfg sch) ↔ c &&& 0xFCFFFFFF#32 = 0x10000000#32 ∧ c.extractLsb' 24 2 = schemeCode sch := by
  have row := decode_ok_iff_of_row (r := ⟨"SETCFG", 0x10000000#32, 0xFCFFFFFF#32⟩) (by decide) (i := .setcfg sch) rfl
    (congrArg (withClearBits · _) (undefinedBits_twoBitField (argField c)))
  rw [row, Instr.setcfg.injEq, schemeOfCode_eq_iff, argField_extractLsb' (by decide)]

theorem decode_setamp_iff (c : CommandWord) (sel : AmpSel) :
    decode c = .ok (.setamp sel) ↔ c &&& 0xFEFFFFFF#32 = 0x20000000#32 ∧ (c.getLsbD 24 = true ↔ sel = .rx) := by
  have row := decode_ok_iff_of_row (r := ⟨"SETAMP", 0x20000000#32, 0xFEFFFFFF#32⟩) (by decide) (i := .setamp sel) rfl
    (congrArg (withClearBits · _) (undefinedBits_oneBitField (argField c)))
  rw [row, Instr.setamp.injEq, ampSelOfBit_eq_iff, argField_getLsbD (by decide)]

theorem decode_setbpc_iff (c : CommandWord) (v : Bool) :
    decode c = .ok (.setbpc v) ↔ c &&& 0xFEFFFFFF#32 = 0x30000000#32 ∧ c.getLsbD 24 = v := by
  have row := decode_ok_iff_of_row (r := ⟨"SETBPC", 0x30000000#32, 0xFEFFFFFF#32⟩) (by decide) (i := .setbpc v) rfl
    (congrArg (withClearBits · _) (undefinedBits_oneBitField (argField c)))
  rw [row, Instr.setbpc.injEq, argField_getLsbD (by decide)]

theorem decode_setpad_iff (c : CommandWord) (v : Bool) (p : Nat) :
    decode c = .ok (.setpad v p) ↔
      c &&& 0xF8FFFFFF#32 = 0x40000000#32 ∧ c.getLsbD 24 = v ∧ (c.extractLsb' 25 2).toNat = p := by
  have row := decode_ok_iff_of_row (r := ⟨"SETPAD", 0x40000000#32, 0xF8FFFFFF#32⟩) (by decide) (i := .setpad v p) rfl
    (congrArg (withClearBits · _) (undefinedBits_threeBitFields (argField c)))
  rw [row, Instr.setpad.injEq, argField_getLsbD (by decide), argField_extractLsb' (by decide)]

theorem decode_flush_iff (c : CommandWord) (ci cf cr : Bool) :
    decode c = .ok (.flush ci cf cr) ↔
      c &&& 0xF8FFFFFF#32 = 0xA0000000#32 ∧ c.getLsbD 24 = ci ∧ c.getLsbD 25 = cf ∧ c.getLsbD 26 = cr := by
  have row := decode_ok_iff_of_row (r := ⟨"FLUSH", 0xA0000000#32, 0xF8FFFFFF#32⟩) (by decide) (i := .flush ci cf cr) rfl
    (congrArg (withClearBits · _) (undefinedBits_threeBitFields (argField c)))
  rw [row, Instr.flush.injEq, argField_getLsbD (by decide), argField_getLsbD (by decide), argField_getLsbD (by decide)]

/-- Settles O1: row by row of the opcode map, and the reserved opcodes. -/
theorem commandsAreReadByMatchMaskAndField : Obligations.CommandsAreReadByMatchMaskAndField := by
  intro c
  refine ⟨?nop, decode_setcfg_iff c, decode_setamp_iff c, decode_setbpc_iff c, decode_setpad_iff c, ?frame, ?mod, ?det,
    ?loop, ?clrerr, decode_flush_iff c, decode_ne_ok_of_reserved⟩
  case nop => exact decode_ok_iff_of_bare_row (mnemonic := "NOP") (by decide) rfl rfl
  case frame => exact decode_ok_iff_of_bare_row (mnemonic := "FRAME") (by decide) rfl rfl
  case mod => exact decode_ok_iff_of_bare_row (mnemonic := "MOD") (by decide) rfl rfl
  case det => exact decode_ok_iff_of_bare_row (mnemonic := "DET") (by decide) rfl rfl
  case loop => exact decode_ok_iff_of_bare_row (mnemonic := "LOOP") (by decide) rfl rfl
  case clrerr => exact decode_ok_iff_of_bare_row (mnemonic := "CLRERR") (by decide) rfl rfl

end Sys2Proof

namespace Sys2Proof.Machine

/-! ### The binary64 patterns of the powers of two -/

/-- A power of two has no bits to round away: only its leading bit is kept. -/
theorem roundShift_two_pow {e sh : Nat} (h : sh ≤ e) : roundShift (2 ^ e) sh = 2 ^ (e - sh) := by
  have hrem : 2 ^ e % 2 ^ sh = 0 := Nat.mod_eq_zero_of_dvd (Nat.pow_dvd_pow 2 h)
  have hpos : 0 ≠ 2 ^ sh := (Nat.two_pow_pos sh).ne
  simp [roundShift, hrem, hpos, Nat.pow_div h Nat.two_pos]

/-- 2^e units of 2^-1074, from the smallest normal number to the largest power of two: fraction 0, exponent e - 51. -/
theorem roundUnits_two_pow {e : Nat} (hnormal : 52 ≤ e) (hfinite : e ≤ 2097) :
    roundUnits (2 ^ e) 0 = (e - 51) * 2 ^ 52 := by
  simp only [roundUnits, Nat.log2_two_pow, Nat.zero_max, Nat.sub_zero, infMag,
    roundShift_two_pow (Nat.sub_le e 52), Nat.sub_sub_self hnormal]
  omega

theorem numOfInt_two_pow {k : Nat} (hk : k ≤ 1023) : numOfInt (2 ^ k : Nat) = BitVec.ofNat 64 ((1023 + k) * 2 ^ 52) := by
  have hunits : roundUnits (2 ^ k * 2 ^ 1074) 0 = (1023 + k) * 2 ^ 52 := by
    rw [← Nat.pow_add, roundUnits_two_pow (by omega) (by omega)]
    omega
  have hsign : decide (((2 ^ k : Nat) : Int) < 0) = false := decide_eq_false (Int.natCast_nonneg _).not_gt
  rw [numOfInt, Int.natAbs_natCast, hunits, hsign, numOfParts, Bool.toNat_false, Nat.zero_mul, Nat.zero_add]

/-! ### The pseudo-instructions -/

theorem assemble_ldamp (sel : AmpSel) (a : Binary64) :
    assemble (.ldamp sel a) = [.wdata a, .issue (encode (.setamp sel))] := rfl

theorem assemble_ldbpc (t : BitVec 32) :
    assemble (.ldbpc t) = [.wdata (t.setWidth 64), .issue (encode (.setbpc true))] := rfl

theorem assemble_clrpad : assemble .clrpad = [.issue (encode (.setpad false 0))] := rfl

theorem assemble_flushAll : assemble .flushAll = [.issue (encode (.flush true true true))] := rfl

theorem assemble_bits (vs : List Element) : assemble (.bits vs) = vs.map .pushbit := rfl

/-- Settles O5: each expansion with its commands' words, and the patterns of 1.0 = 2^0 and 2.0 = 2^1. -/
theorem pseudoInstructionExpansions : Obligations.PseudoInstructionExpansions := by
  have setampTx : encode (.setamp .tx) = 0x20000000#32 := by decide
  have setampRx : encode (.setamp .rx) = 0x21000000#32 := by decide
  have setbpcPresent : encode (.setbpc true) = 0x31000000#32 := by decide
  have setpadClear : encode (.setpad false 0) = 0x40000000#32 := by decide
  have flushAll : encode (.flush true true true) = 0xA7000000#32 := by decide
  refine ⟨fun a => ?_, fun a => ?_, fun t => ?_, ?_, ?_, assemble_bits, ?_, ?_⟩
  · rw [assemble_ldamp, setampTx]
  · rw [assemble_ldamp, setampRx]
  · rw [assemble_ldbpc, setbpcPresent]
  · rw [assemble_clrpad, setpadClear]
  · rw [assemble_flushAll, flushAll]
  · exact numOfInt_two_pow (k := 0) (by decide)
  · exact numOfInt_two_pow (k := 1) (by decide)

end Sys2Proof.Machine
end

section
/-! The control commands (40_control.md): what each does to the state (R130, R132 to R137), the amplitudes SETAMP takes
(R133), and how a command reports in STATUS (R131). -/

namespace Sys2Proof

/-! ### The words of the control commands -/

/-- The row of a command without fields is its match alone (30_encoding.md R107). -/
theorem decode_ok_iff_eq_of_bare_row {mnemonic : String} {pattern : CommandWord}
    (hr : { mnemonic, pattern, mask := 0xFFFFFFFF#32 } ∈ opcodeMap) {c : CommandWord} {i : Instr}
    (hopc : (opcField pattern).toNat = opcOf i)
    (reads : decodeFields (opcField pattern) (argField c) = withClearBits (argField c != 0#4) i) :
    decode c = .ok i ↔ c = pattern := by
  have hand : c &&& 0xFFFFFFFF#32 = c := BitVec.and_allOnes
  rw [decode_ok_iff_of_bare_row hr hopc reads, hand]

theorem decode_nop_iff (c : CommandWord) : decode c = .ok .nop ↔ c = 0x00000000#32 :=
  decode_ok_iff_eq_of_bare_row (mnemonic := "NOP") (by decide) rfl rfl

theorem decode_clrerr_iff (c : CommandWord) : decode c = .ok .clrerr ↔ c = 0x90000000#32 :=
  decode_ok_iff_eq_of_bare_row (mnemonic := "CLRERR") (by decide) rfl rfl

theorem opcOf_of_decode_ok {c : CommandWord} {i : Instr} (h : decode c = .ok i) : c.toNat / 2 ^ 28 = opcOf i := by
  obtain ⟨-, hfields⟩ := decode_ok_iff.mp h
  exact opcField_toNat c ▸ toNat_of_decodeFields_ok hfields

theorem opcOf_eq_zero_iff (i : Instr) : opcOf i = 0 ↔ i = .nop := by
  cases i <;> simp [opcOf]

/-- OPC 0 with any other bit set is Illegal (R130). -/
theorem decode_ne_ok_of_opc_zero {c : CommandWord} (hopc : c.toNat / 2 ^ 28 = 0) (hne : c ≠ 0#32) (i : Instr) :
    decode c ≠ .ok i := by
  intro hdec
  obtain rfl : i = .nop := (opcOf_eq_zero_iff i).mp (opcOf_of_decode_ok hdec ▸ hopc)
  exact hne ((decode_nop_iff c).mp hdec)

/-! Each word under a row's match and mask carries some value of the row's fields. -/

theorem exists_decode_setcfg_iff (c : CommandWord) :
    (∃ sch, decode c = .ok (.setcfg sch)) ↔ c &&& 0xFCFFFFFF#32 = 0x10000000#32 := by
  have some_scheme : ∃ sch, c.extractLsb' 24 2 = schemeCode sch := ⟨_, (schemeOfCode_eq_iff _ _).mp rfl⟩
  simp only [decode_setcfg_iff, exists_and_left, some_scheme, and_true]

theorem exists_decode_setamp_iff (c : CommandWord) :
    (∃ sel, decode c = .ok (.setamp sel)) ↔ c &&& 0xFEFFFFFF#32 = 0x20000000#32 := by
  have some_selector : ∃ sel : AmpSel, c.getLsbD 24 = true ↔ sel = .rx := ⟨_, (ampSelOfBit_eq_iff _ _).mp rfl⟩
  simp only [decode_setamp_iff, exists_and_left, some_selector, and_true]

theorem exists_decode_setbpc_iff (c : CommandWord) :
    (∃ v, decode c = .ok (.setbpc v)) ↔ c &&& 0xFEFFFFFF#32 = 0x30000000#32 := by
  simp only [decode_setbpc_iff, exists_and_left, exists_eq', and_true]

theorem exists_decode_setpad_iff (c : CommandWord) :
    (∃ v p, decode c = .ok (.setpad v p)) ↔ c &&& 0xF8FFFFFF#32 = 0x40000000#32 := by
  simp only [decode_setpad_iff, exists_and_left, exists_eq', and_true]

theorem exists_decode_flush_iff (c : CommandWord) :
    (∃ ci cf cr, decode c = .ok (.flush ci cf cr)) ↔ c &&& 0xF8FFFFFF#32 = 0xA0000000#32 := by
  simp only [decode_flush_iff, exists_and_left, exists_eq', and_true]

end Sys2Proof

namespace Sys2Proof.Machine

/-! ### The amplitudes SETAMP takes (R133) -/

theorem amplitudeLegal_iff (a : Binary64) :
    amplitudeLegal a = true ↔ numIsFinite a = true ∧ numLt numZero a = true := Bool.and_eq_true_iff

/-- A finite number is above +0.0 when its sign is plus and its magnitude is not 0: no zero, of either sign, is. -/
theorem numLt_numZero_iff {a : Binary64} (h : numIsFinite a = true) :
    numLt numZero a = true ↔ numSign a = false ∧ 0 < numMag a := by
  have key_zero : numKey numZero = 0 := by decide
  have zero_no_nan : numIsNan numZero = false := by decide
  have lt_iff : numLt numZero a = true ↔ 0 < numKey a := by
    simp [numLt, key_zero, zero_no_nan, numIsFinite_not_nan h]
  rw [lt_iff, numKey]
  cases numSign a <;> simp

theorem numSign_eq_false_iff (a : Binary64) : numSign a = false ↔ a.toNat < 2 ^ 63 := by
  rw [numSign_eq, decide_eq_false_iff_not, not_le]

/-- The legal amplitudes are the patterns from the smallest subnormal to the largest finite number. -/
theorem amplitudeLegal_iff_toNat (a : Binary64) : amplitudeLegal a = true ↔ 1 ≤ a.toNat ∧ a.toNat < infMag := by
  have inf_lt : infMag < 2 ^ 63 := by decide
  have mag_of_plus (hplus : a.toNat < 2 ^ 63) : numMag a = a.toNat := Nat.mod_eq_of_lt hplus
  have finite_iff : numIsFinite a = true ↔ numMag a < infMag := decide_eq_true_iff
  rw [amplitudeLegal_iff]
  constructor
  · rintro ⟨hfin, hpos⟩
    obtain ⟨hsign, hmag⟩ := (numLt_numZero_iff hfin).mp hpos
    rw [← mag_of_plus ((numSign_eq_false_iff a).mp hsign)]
    exact ⟨hmag, finite_iff.mp hfin⟩
  · rintro ⟨hpos, hlt⟩
    have hplus : a.toNat < 2 ^ 63 := hlt.trans inf_lt
    have hfin : numIsFinite a = true := finite_iff.mpr (mag_of_plus hplus ▸ hlt)
    exact ⟨hfin, (numLt_numZero_iff hfin).mpr ⟨(numSign_eq_false_iff a).mpr hplus, mag_of_plus hplus ▸ hpos⟩⟩

/-! ### What each control command does -/

@[simp] theorem exec_nop (s : State) : exec .nop s = .next (complete s) := rfl

@[simp] theorem exec_setcfg_some (sch : Scheme) (s : State) :
    exec (.setcfg (some sch)) s = .next (complete { s with scheme := some sch }) := rfl

@[simp] theorem exec_setcfg_none (s : State) : exec (.setcfg none) s = .next (raiseError .unsupportedScheme s) := rfl

theorem exec_setamp_of_legal (sel : AmpSel) {s : State} (h : amplitudeLegal s.data = true) :
    exec (.setamp sel) s = .next (complete (writeAmplitude sel s.data s)) := by
  simp [exec, execSetamp, dataAmplitude, h]

theorem exec_setamp_of_not_legal (sel : AmpSel) {s : State} (h : amplitudeLegal s.data = false) :
    exec (.setamp sel) s = .next (raiseError .invalidAmplitude s) := by
  simp [exec, execSetamp, dataAmplitude, h]

@[simp] theorem exec_setbpc (v : Bool) (s : State) :
    exec (.setbpc v) s = .next (complete { s with bpc := if v then dataTag s else 0#32, bpcValid := v }) := rfl

@[simp] theorem exec_setpad (v : Bool) (padv : Nat) (s : State) :
    exec (.setpad v padv) s = .next (complete { s with pad := padOperand padv, padValid := v }) := rfl

@[simp] theorem exec_clrerr (s : State) : exec .clrerr s = .next (clearErrors s) := rfl

@[simp] theorem exec_flush (ci cf cr : Bool) (s : State) :
    exec (.flush ci cf cr) s = .next (complete { s with
      inBits := if ci then [] else s.inBits
      framed := if cf then [] else s.framed
      rxIn := if cr then [] else s.rxIn }) := rfl

theorem padOperand_toNat {padv : Nat} (h : padv < 4) : (padOperand padv).toNat = padv := by
  rw [padOperand, BitVec.toNat_ofNat, Nat.mod_eq_of_lt h]

@[simp] theorem writeAmplitude_errSeen (sel : AmpSel) (a : Binary64) (s : State) :
    (writeAmplitude sel a s).errSeen = s.errSeen := by
  cases sel <;> rfl

/-! ### How a command reports in STATUS (R131, 60_exceptions.md R286) -/

/-- From `s` to `t` the error path was taken, or STATUS says that the command completed: CODE 0, ERRSEEN kept. -/
def FailsOrCompletes (s t : State) : Prop :=
  (∃ e, t = raiseError e s) ∨ (t.code = codeOk ∧ t.errSeen = s.errSeen)

theorem failsOrCompletes_complete {s u : State} (h : u.errSeen = s.errSeen) : FailsOrCompletes s (complete u) :=
  .inr ⟨complete_code u, h⟩

/-- A command whose checks go before an effect that keeps ERRSEEN. -/
theorem failsOrCompletes_of_afterChecks {α : Type} {checks : Except BlockError α} {s t : State} {effect : α → State}
    (h : afterChecks checks s (fun a => .next (complete (effect a))) = .next t)
    (keeps : ∀ a, (effect a).errSeen = s.errSeen) : FailsOrCompletes s t := by
  obtain ⟨e, -, ht⟩ | ⟨a, -, ht⟩ := afterChecks_cases h
  · exact .inl ⟨e, Host.Outcome.next.inj ht⟩
  · obtain rfl := Host.Outcome.next.inj ht
    exact failsOrCompletes_complete (keeps a)

theorem failsOrCompletes_of_execLoop {s t : State} (h : execLoop s = .next t) : FailsOrCompletes s t := by
  obtain ⟨e, -, ht⟩ | ⟨-, -, ht⟩ := afterChecks_cases h
  · exact .inl ⟨e, Host.Outcome.next.inj ht⟩
  · obtain ⟨u, happ, rfl⟩ := completing_next ht.symm
    obtain ⟨-, hu⟩ | ⟨-, hu⟩ := appendRxIn_cases happ
    · obtain rfl := Host.Outcome.next.inj hu
      exact failsOrCompletes_complete rfl
    · cases hu

theorem exec_failsOrCompletes {i : Instr} {s t : State} (h : exec i s = .next t) (hi : i ≠ .clrerr) :
    FailsOrCompletes s t := by
  cases i with
  | nop | setbpc | setpad | flush =>
    obtain rfl := Host.Outcome.next.inj h
    exact failsOrCompletes_complete rfl
  | setamp sel => exact failsOrCompletes_of_afterChecks h fun _ => writeAmplitude_errSeen sel _ s
  | setcfg | frame | mod | det => exact failsOrCompletes_of_afterChecks h fun _ => rfl
  | loop => exact failsOrCompletes_of_execLoop h
  | clrerr => exact absurd rfl hi

theorem errorCode_ne_zero (e : BlockError) : errorCode e ≠ 0#4 := by
  cases e <;> decide

/-! ### The statements -/

/-- Settles O18: the checked amplitude is written, any other takes the error path. -/
theorem setampSetsALegalAmplitude : Obligations.SetampSetsALegalAmplitude := by
  refine ⟨exists_decode_setamp_iff, fun c sel hdec => ?field, fun s legal => ?taken, fun s sel notLegal => ?refused,
    fun a => ?range⟩
  case field => exact ((decode_setamp_iff c sel).mp hdec).2.symm
  case taken =>
    have hlegal := (amplitudeLegal_iff s.data).mpr legal
    exact ⟨exec_setamp_of_legal .tx hlegal, exec_setamp_of_legal .rx hlegal⟩
  case refused =>
    rw [← amplitudeLegal_iff, Bool.not_eq_true] at notLegal
    exact exec_setamp_of_not_legal sel notLegal
  case range =>
    rw [← amplitudeLegal_iff, amplitudeLegal_iff_toNat, infMag]
    omega

/-- Settles O48: CLRERR clears ERRSEEN, and every other command takes the error path or completes. -/
theorem completionWritesCodeZero : Obligations.CompletionWritesCodeZero := by
  intro i s t h
  by_cases hi : i = .clrerr
  · subst hi
    obtain rfl := Host.Outcome.next.inj h
    exact .inl ⟨rfl, fun hne => absurd rfl hne, fun _ => rfl⟩
  · obtain ⟨e, rfl⟩ | ⟨hcode, hkept⟩ := exec_failsOrCompletes h hi
    · exact .inr ⟨errorCode_ne_zero e, rfl⟩
    · exact .inl ⟨hcode, fun _ => hkept, fun hclr => absurd hclr hi⟩

/-- Settles O16. -/
theorem nopWritesOnlyCode : Obligations.NopWritesOnlyCode :=
  ⟨decode_nop_iff, fun _ => decode_ne_ok_of_opc_zero, exec_nop⟩

/-- Settles O17. -/
theorem setcfgSelectsTheScheme : Obligations.SetcfgSelectsTheScheme :=
  ⟨exists_decode_setcfg_iff, fun c sch hdec => ((decode_setcfg_iff c sch).mp hdec).2.symm,
    fun s => ⟨fun sch => exec_setcfg_some sch s, exec_setcfg_none s⟩⟩

/-- Settles O19. -/
theorem setbpcSetsTheTag : Obligations.SetbpcSetsTheTag :=
  ⟨exists_decode_setbpc_iff, fun c v hdec => ((decode_setbpc_iff c v).mp hdec).2.symm,
    fun s => ⟨exec_setbpc true s, exec_setbpc false s⟩⟩

/-- Settles O20: the register holds PADV itself, its 2-bit operand. -/
theorem setpadSetsThePadding : Obligations.SetpadSetsThePadding := by
  refine ⟨exists_decode_setpad_iff, fun c v p hdec => ?fields, fun s v p hp => ?effect⟩
  case fields =>
    obtain ⟨-, hv, hp⟩ := (decode_setpad_iff c v p).mp hdec
    exact ⟨hv.symm, hp.symm⟩
  case effect => exact ⟨padOperand p, padOperand_toNat hp, exec_setpad v p s⟩

/-- Settles O21: every other command sets ERRSEEN or keeps it. -/
theorem clrerrClearsStatus : Obligations.ClrerrClearsStatus := by
  refine ⟨decode_clrerr_iff, exec_clrerr, fun i s t h was_set is_clear => ?only⟩
  by_contra hi
  obtain ⟨e, rfl⟩ | ⟨-, hkept⟩ := exec_failsOrCompletes h hi
  · cases is_clear
  · exact absurd (hkept.symm.trans is_clear) (by simp [was_set])

/-- Settles O22. -/
theorem flushEmptiesTheNamedBuffers : Obligations.FlushEmptiesTheNamedBuffers := by
  refine ⟨exists_decode_flush_iff, fun c ci cf cr hdec => ?fields, fun s ci cf cr => exec_flush ci cf cr s⟩
  obtain ⟨-, hci, hcf, hcr⟩ := (decode_flush_iff c ci cf cr).mp hdec
  exact ⟨hci.symm, hcf.symm, hcr.symm⟩

end Sys2Proof.Machine
end

section
/-! The numbers of the integers below 2^53 in size: their patterns, and that they are exact (41_alphabet.md R165 and R171
take the coordinates of the points from such integers). -/

namespace Sys2Proof.Machine

/-- A whole multiple of the kept unit has no bits to round away. -/
theorem roundShift_mul_two_pow (q sh : Nat) : roundShift (q * 2 ^ sh) sh = q := by
  have hpos : 0 < 2 ^ sh := Nat.two_pow_pos sh
  simp [roundShift, hpos.ne]

theorem log2_mul_two_pow {n : Nat} (hn : n ≠ 0) (k : Nat) : (n * 2 ^ k).log2 = n.log2 + k := by
  have hpos : 0 < 2 ^ k := Nat.two_pow_pos k
  obtain ⟨hlow, hhigh⟩ := (Nat.log2_eq_iff hn).mp rfl
  refine (Nat.log2_eq_iff (Nat.mul_ne_zero hn hpos.ne')).mpr ⟨?_, ?_⟩
  · exact Nat.pow_add .. ▸ Nat.mul_le_mul_right _ hlow
  · rw [Nat.add_right_comm, Nat.pow_add]
    exact Nat.mul_lt_mul_of_pos_right hhigh hpos

/-- The significand of `n`: its leading bit moved to place 52. -/
def significand (n : Nat) : Nat := n * 2 ^ (52 - n.log2)

theorem log2_le_of_lt {n : Nat} (hn : n ≠ 0) (hlt : n < 2 ^ 53) : n.log2 ≤ 52 :=
  Nat.lt_succ_iff.mp ((Nat.log2_lt hn).mpr hlt)

theorem significand_bounds {n : Nat} (hn : n ≠ 0) (hlt : n < 2 ^ 53) :
    2 ^ 52 ≤ significand n ∧ significand n < 2 ^ 53 := by
  have hpos : significand n ≠ 0 := Nat.mul_ne_zero hn (Nat.two_pow_pos _).ne'
  rw [← Nat.log2_eq_iff hpos, significand, log2_mul_two_pow hn, Nat.add_sub_cancel' (log2_le_of_lt hn hlt)]

theorem significand_mul_two_pow {n k e : Nat} (hn : n ≠ 0) (hlt : n < 2 ^ 53) (he : e = k + 52) :
    significand n * 2 ^ (n.log2 + k) = n * 2 ^ e := by
  have hexp : 52 - n.log2 + (n.log2 + k) = e := by have := log2_le_of_lt hn hlt; omega
  rw [significand, Nat.mul_assoc, ← Nat.pow_add, hexp]

/-- A significand below 2^53 at a normal exponent is kept whole; its leading bit goes over into the exponent field. -/
theorem roundUnits_mul_two_pow {n k e : Nat} (hn : n ≠ 0) (hlt : n < 2 ^ 53) (he : e = k + 52) (hfinite : k ≤ 1993) :
    roundUnits (n * 2 ^ e) 0 = (n.log2 + k) * 2 ^ 52 + significand n := by
  have hshift : (n * 2 ^ e).log2 - 52 = n.log2 + k := by rw [log2_mul_two_pow hn]; omega
  have hround : roundShift (n * 2 ^ e) (n.log2 + k) = significand n := by
    rw [← significand_mul_two_pow hn hlt he, roundShift_mul_two_pow]
  have hlog := log2_le_of_lt hn hlt
  obtain ⟨-, hhigh⟩ := significand_bounds hn hlt
  simp only [roundUnits, hshift, hround, Nat.zero_max, Nat.sub_zero, infMag]
  omega

theorem magUnits_significand {n k e : Nat} (hn : n ≠ 0) (hlt : n < 2 ^ 53) (he : e = k + 52) :
    magUnits ((n.log2 + k) * 2 ^ 52 + significand n) = n * 2 ^ e := by
  obtain ⟨hlow, hhigh⟩ := significand_bounds hn hlt
  have hexp : ((n.log2 + k) * 2 ^ 52 + significand n) / 2 ^ 52 = n.log2 + k + 1 := by omega
  have hfrac : 2 ^ 52 + ((n.log2 + k) * 2 ^ 52 + significand n) % 2 ^ 52 = significand n := by omega
  rw [magUnits, hexp, hfrac, if_neg (Nat.succ_ne_zero _), Nat.add_sub_cancel, significand_mul_two_pow hn hlt he]

/-- The magnitude of the binary64 number of the integer `n`. -/
def integerMag (n : Nat) : Nat := (n.log2 + 1022) * 2 ^ 52 + significand n

theorem integerMag_lt_infMag {n : Nat} (hn : n ≠ 0) (hlt : n < 2 ^ 53) : integerMag n < infMag := by
  have hlog := log2_le_of_lt hn hlt
  obtain ⟨-, hhigh⟩ := significand_bounds hn hlt
  rw [integerMag, infMag]
  omega

theorem magUnits_integerMag {n : Nat} (hn : n ≠ 0) (hlt : n < 2 ^ 53) : magUnits (integerMag n) = n * 2 ^ 1074 :=
  magUnits_significand hn hlt (k := 1022) rfl

theorem numOfInt_eq {z : Int} (hz : z ≠ 0) (hlt : z.natAbs < 2 ^ 53) :
    numOfInt z = numOfParts (decide (z < 0)) (integerMag z.natAbs) := by
  rw [numOfInt, roundUnits_mul_two_pow (Int.natAbs_ne_zero.mpr hz) hlt (k := 1022) rfl (by decide), integerMag]

/-- The number of a non-zero integer below 2^53 in size is finite and has exactly its value. -/
theorem numOfInt_exact {z : Int} (hz : z ≠ 0) (hlt : z.natAbs < 2 ^ 53) :
    numIsFinite (numOfInt z) = true ∧ numUnits (numOfInt z) = z * 2 ^ 1074 := by
  have hn : z.natAbs ≠ 0 := Int.natAbs_ne_zero.mpr hz
  have hfinite : integerMag z.natAbs < infMag := integerMag_lt_infMag hn hlt
  have hfield : integerMag z.natAbs < 2 ^ 63 := hfinite.trans (by decide)
  have hmag : numMag (numOfInt z) = integerMag z.natAbs := numOfInt_eq hz hlt ▸ numMag_numOfParts _ _ hfield
  have hsign : numSign (numOfInt z) = decide (z < 0) := numOfInt_eq hz hlt ▸ numSign_numOfParts _ _ hfield
  refine ⟨by rw [numIsFinite, hmag]; exact decide_eq_true hfinite, ?_⟩
  rw [numUnits, hsign, hmag, magUnits_integerMag hn hlt, Nat.cast_mul, Nat.cast_pow, Nat.cast_ofNat]
  obtain hneg | hnonneg := lt_or_ge z 0
  · rw [decide_eq_true hneg, if_pos rfl, Int.ofNat_natAbs_of_nonpos hneg.le, ← Int.neg_mul, Int.neg_neg]
  · rw [decide_eq_false hnonneg.not_gt, if_neg Bool.false_ne_true, Int.natAbs_of_nonneg hnonneg]

end Sys2Proof.Machine
end

section
/-! The alphabets (41_alphabet.md): patterns as numbers, the Gray labelling of FSK8 and PSK8 (R163 to R168, R174), and the
functions of a QAM16_TABLE that meets the constraints (R170 to R172). -/

namespace Sys2Proof.Machine

/-! ### Patterns as numbers -/

@[simp] theorem patVal_concat (g : Pattern) (b : Bit) : patVal (g ++ [b]) = 2 * patVal g + b.toNat := by
  simp [patVal]

/-- The last bit of a pattern is the lowest bit of its number. -/
theorem patOf_succ (b n : Nat) : patOf (b + 1) n = patOf b (n / 2) ++ [n.testBit 0] := by
  simp only [patOf, List.range_succ, List.map_append, List.map_cons, List.map_nil, Nat.add_sub_cancel, Nat.sub_self,
    List.append_cancel_right_eq, Nat.testBit_div_two]
  refine List.map_congr_left fun k hk => ?_
  rw [List.mem_range] at hk
  congr 1
  omega

theorem patVal_patOf {b n : Nat} (h : n < 2 ^ b) : patVal (patOf b n) = n := by
  induction b generalizing n with
  | zero => exact (Nat.lt_one_iff.mp h).symm
  | succ b ih =>
    have low : (n.testBit 0).toNat = n % 2 := by rw [Nat.toNat_testBit, Nat.pow_zero, Nat.div_one]
    rw [patOf_succ, patVal_concat, ih (by omega), low]
    omega

theorem patVal_lt {g : Pattern} {b : Nat} (hg : g.length = b) : patVal g < 2 ^ b := by
  subst hg
  induction g using List.reverseRecOn with
  | nil => exact Nat.one_pos
  | append_singleton g bit ih =>
    have := Bool.toNat_lt bit
    rw [patVal_concat, List.length_append, List.length_singleton, Nat.pow_succ]
    omega

theorem patOf_patVal {g : Pattern} {b : Nat} (hg : g.length = b) : patOf b (patVal g) = g := by
  subst hg
  induction g using List.reverseRecOn with
  | nil => rfl
  | append_singleton g bit ih =>
    have half : (2 * patVal g + bit.toNat) / 2 = patVal g := by have := Bool.toNat_lt bit; omega
    have low : (2 * patVal g + bit.toNat).testBit 0 = bit := by cases bit <;> simp
    rw [patVal_concat, List.length_append, List.length_singleton, patOf_succ, half, low, ih]

/-! ### The Gray labelling of FSK8 and PSK8 -/

/-- A relabelling `f` of the numbers of B bits, with the inverse `g`, gives pattern functions that invert each other. -/
theorem labelling_round_trip {b : Nat} {f g : Nat → Nat} (hgf : ∀ n < 2 ^ b, g (f n) = n)
    (hfg : ∀ i < 2 ^ b, g i < 2 ^ b ∧ f (g i) = i) :
    (∀ i, i < 2 ^ b → f (patVal (patOf b (g i))) = i) ∧
      (∀ p : Pattern, p.length = b → patOf b (g (f (patVal p))) = p) := by
  refine ⟨fun i hi => ?_, fun p hp => ?_⟩
  · obtain ⟨hlt, hinv⟩ := hfg i hi
    rw [patVal_patOf hlt, hinv]
  · rw [hgf _ (patVal_lt hp), patOf_patVal hp]

/-- R161 and R162 on the numbers of three bits. -/
theorem grayInv_gray_of_lt : ∀ n < 8, grayInv (gray n) = n := by decide

theorem gray_grayInv_of_lt : ∀ i < 8, grayInv i < 8 ∧ gray (grayInv i) = i := by decide

theorem gray8_getD : ∀ n < 8, gray8.getD n 0 = gray n := by decide

theorem gray8_idxOf : ∀ k < 8, gray8.idxOf k = grayInv k := by decide

theorem gray_lt : ∀ n < 8, gray n < 8 := by decide

theorem fsk8_round_trip :
    (∀ i, i < 8 → fsk8Alphabet.bitsToIndex (fsk8Alphabet.indexToBits i) = i) ∧
      (∀ g : Pattern, g.length = 3 → fsk8Alphabet.indexToBits (fsk8Alphabet.bitsToIndex g) = g) :=
  labelling_round_trip (b := 3) grayInv_gray_of_lt gray_grayInv_of_lt

/-- PSK8 labels as FSK8 does: the permutation of R167 and its inverse of R168 are the transforms of R161 and R162. -/
theorem psk8_bitsToIndex {g : Pattern} (hg : g.length = 3) : psk8Alphabet.bitsToIndex g = fsk8Alphabet.bitsToIndex g :=
  gray8_getD _ (patVal_lt hg)

theorem psk8_indexToBits {i : Nat} (hi : i < 8) : psk8Alphabet.indexToBits i = fsk8Alphabet.indexToBits i :=
  congrArg (patOf 3) (gray8_idxOf i hi)

theorem psk8_round_trip :
    (∀ i, i < 8 → psk8Alphabet.bitsToIndex (psk8Alphabet.indexToBits i) = i) ∧
      (∀ g : Pattern, g.length = 3 → psk8Alphabet.indexToBits (psk8Alphabet.bitsToIndex g) = g) := by
  obtain ⟨hindex, hbits⟩ := fsk8_round_trip
  refine ⟨fun i hi => ?_, fun g hg => ?_⟩
  · have hlen : (fsk8Alphabet.indexToBits i).length = 3 := patOf_length 3 _
    rw [psk8_indexToBits hi, psk8_bitsToIndex hlen, hindex i hi]
  · have hlt : fsk8Alphabet.bitsToIndex g < 8 := gray_lt _ (patVal_lt hg)
    rw [psk8_bitsToIndex hg, psk8_indexToBits hlt, hbits g hg]

theorem fsk8_bitsToIndex_patOf {n : Nat} (hn : n < 8) : fsk8Alphabet.bitsToIndex (patOf 3 n) = gray n :=
  congrArg gray (patVal_patOf hn)

/-- Both labellings give the raw value `n` the index gray(n). -/
theorem bitsToIndex_patOf_eq_gray : ∀ a ∈ [fsk8Alphabet, psk8Alphabet], ∀ n < 8,
    a.bitsToIndex (patOf 3 n) = gray n := by
  rintro a ha n hn
  obtain rfl | rfl := List.mem_pair.mp ha
  · exact fsk8_bitsToIndex_patOf hn
  · exact (psk8_bitsToIndex (patOf_length 3 n)).trans (fsk8_bitsToIndex_patOf hn)

/-- Raw values one apart have Gray codes one bit apart. -/
theorem hamming_gray_succ : ∀ n < 7, hamming (patOf 3 (gray n)) (patOf 3 (gray (n + 1))) = 1 := by decide

/-- The frequencies by index (R165): the integers 1000 to 8000 and their patterns. -/
theorem fsk8_indexToPoint {i : Nat} (hi : i < 8) :
    fsk8Alphabet.indexToPoint i = .freq (numOfParts false (integerMag (1000 + 1000 * i))) := by
  have hnonneg : ¬ (1000 + 1000 * (i : Int) < 0) := by omega
  have habs : (1000 + 1000 * (i : Int)).natAbs = 1000 + 1000 * i := by omega
  have hpattern := numOfInt_eq (z := 1000 + 1000 * (i : Int)) (by omega) (by omega)
  rw [decide_eq_false hnonneg, habs] at hpattern
  exact congrArg Point.freq hpattern

/-! ### A QAM16 table that meets the constraints (R170) -/

theorem qam16PatternsOk_iff (table : List Qam16Row) :
    qam16PatternsOk table = true ↔ table.length = 16 ∧ (∀ row ∈ table, row.bits.length = 4) ∧
      (table.map (·.bits)).Nodup := by
  simp [qam16PatternsOk, and_assoc]

theorem qam16TableOk_of_paramsOk {p : Params} (h : paramsOk p = true) : qam16TableOk p.qam16Table = true := by
  simp only [paramsOk, Bool.and_eq_true] at h
  obtain ⟨⟨htable, -⟩, -⟩ := h
  exact htable

/-- What the constraints say of the patterns and of the coordinates. -/
theorem patterns_and_levels_of_tableOk {table : List Qam16Row} (h : qam16TableOk table = true) :
    qam16PatternsOk table = true ∧ ∀ row ∈ table, row.i ∈ qam16Levels ∧ row.q ∈ qam16Levels := by
  simp only [qam16TableOk, qam16PointsOk, Bool.and_eq_true, List.all_eq_true, List.contains_iff_mem] at h
  obtain ⟨⟨⟨hpatterns, hlevels, -⟩, -⟩, -⟩ := h
  exact ⟨hpatterns, hlevels⟩

theorem exists_row_of_lt {table : List Qam16Row} (h : qam16PatternsOk table = true) {r : Nat} (hr : r < 16) :
    ∃ row, table[r]? = some row := by
  obtain ⟨hlen, -, -⟩ := (qam16PatternsOk_iff table).mp h
  exact ⟨_, List.getElem?_eq_getElem (hlen ▸ hr)⟩

/-- Sixteen distinct patterns of four bits are all of them. -/
theorem exists_row_of_pattern {table : List Qam16Row} (h : qam16PatternsOk table = true) {g : Pattern}
    (hg : g.length = 4) : ∃ row ∈ table, row.bits = g := by
  obtain ⟨hlen, hbits, hnodup⟩ := (qam16PatternsOk_iff table).mp h
  have four_bits {g : Pattern} (hg : g.length = 4) : g ∈ (List.range 16).map (patOf 4) :=
    List.mem_map.mpr ⟨patVal g, List.mem_range.mpr (patVal_lt hg), patOf_patVal hg⟩
  have hsub : table.map (·.bits) ⊆ (List.range 16).map (patOf 4) := by
    intro g hg
    obtain ⟨row, hrow, rfl⟩ := List.mem_map.mp hg
    exact four_bits (hbits row hrow)
  have hperm := (List.subperm_of_subset hnodup hsub).perm_of_length_le (by simp [hlen])
  exact List.mem_map.mp (hperm.mem_iff.mpr (four_bits hg))

/-- bitsToIndex finds a row of its pattern (R171). -/
theorem row_at_bitsToIndex {table : List Qam16Row} (h : qam16PatternsOk table = true) {g : Pattern} (hg : g.length = 4) :
    ∃ row, table[(qam16Alphabet table).bitsToIndex g]? = some row ∧ row.bits = g := by
  obtain ⟨row, hrow, hbits⟩ := exists_row_of_pattern h hg
  have hlt : (qam16Alphabet table).bitsToIndex g < table.length :=
    List.findIdx_lt_length_of_exists ⟨row, hrow, beq_iff_eq.mpr hbits⟩
  exact ⟨_, List.getElem?_eq_getElem hlt, beq_iff_eq.mp (List.findIdx_getElem (w := hlt))⟩

/-- The patterns being distinct, bitsToIndex of a row's pattern is that row (R171). -/
theorem bitsToIndex_of_row {table : List Qam16Row} (h : qam16PatternsOk table = true) {r : Nat} {row : Qam16Row}
    (hrow : table[r]? = some row) : (qam16Alphabet table).bitsToIndex row.bits = r := by
  obtain ⟨-, -, hnodup⟩ := (qam16PatternsOk_iff table).mp h
  obtain ⟨hlt, rfl⟩ := List.getElem?_eq_some_iff.mp hrow
  have hidx := hnodup.idxOf_getElem r (by simpa using hlt)
  rwa [List.getElem_map, List.idxOf, List.findIdx_map] at hidx

theorem indexToBits_of_row {table : List Qam16Row} {r : Nat} {row : Qam16Row} (hrow : table[r]? = some row) :
    (qam16Alphabet table).indexToBits r = row.bits := by
  simp [qam16Alphabet, hrow]

theorem indexToPoint_of_row {table : List Qam16Row} {r : Nat} {row : Qam16Row} (hrow : table[r]? = some row) :
    (qam16Alphabet table).indexToPoint r = .iq (numOfInt row.i) (numOfInt row.q) := by
  simp [qam16Alphabet, hrow]

theorem qam16_round_trip {table : List Qam16Row} (h : qam16PatternsOk table = true) :
    (∀ i, i < 16 → (qam16Alphabet table).bitsToIndex ((qam16Alphabet table).indexToBits i) = i) ∧
      (∀ g : Pattern, g.length = 4 →
        (qam16Alphabet table).indexToBits ((qam16Alphabet table).bitsToIndex g) = g) := by
  refine ⟨fun i hi => ?_, fun g hg => ?_⟩
  · obtain ⟨row, hrow⟩ := exists_row_of_lt h hi
    rw [indexToBits_of_row hrow, bitsToIndex_of_row h hrow]
  · obtain ⟨row, hrow, hbits⟩ := row_at_bitsToIndex h hg
    rw [indexToBits_of_row hrow, hbits]

theorem map_indexToPoint {table : List Qam16Row} (hlen : table.length = 16) :
    (List.range 16).map (qam16Alphabet table).indexToPoint =
      (table.map fun row => (row.i, row.q)).map fun point => .iq (numOfInt point.1) (numOfInt point.2) := by
  refine List.ext_getElem (by simp [hlen]) fun r _ hr => ?_
  have hlt : r < table.length := by simpa using hr
  simpa using indexToPoint_of_row (List.getElem?_eq_getElem hlt)

/-! ### The coordinates of QAM16 -/

theorem numOfInt_levels :
    numOfInt (-3) = 0xC008000000000000#64 ∧ numOfInt (-1) = 0xBFF0000000000000#64 ∧
      numOfInt 1 = 0x3FF0000000000000#64 ∧ numOfInt 3 = 0x4008000000000000#64 := by
  refine ⟨?_, ?_, ?_, ?_⟩ <;> rw [numOfInt_eq (by decide) (by decide)] <;> decide

theorem levels_nonzero_and_small : ∀ z ∈ qam16Levels, z ≠ 0 ∧ z.natAbs < 2 ^ 53 := by decide

/-- Each level has its pattern, a finite number of exactly its value. -/
theorem numOfInt_level {z : Int} (hz : z ∈ qam16Levels) :
    (z, numOfInt z) ∈ [((-3 : Int), 0xC008000000000000#64), (-1, 0xBFF0000000000000#64), (1, 0x3FF0000000000000#64),
        (3, 0x4008000000000000#64)] ∧
      numIsFinite (numOfInt z) = true ∧ numUnits (numOfInt z) = z * 2 ^ 1074 := by
  have patterns : qam16Levels.map (fun z => (z, numOfInt z)) =
      [(-3, 0xC008000000000000#64), (-1, 0xBFF0000000000000#64), (1, 0x3FF0000000000000#64),
        (3, 0x4008000000000000#64)] := by
    simp [qam16Levels, numOfInt_levels]
  obtain ⟨hne, hlt⟩ := levels_nonzero_and_small z hz
  exact ⟨patterns ▸ List.mem_map_of_mem hz, numOfInt_exact hne hlt⟩

/-! ### The default QAM16 table (R172) -/

theorem qam16DefaultTable_ok : qam16TableOk qam16DefaultTable = true := by decide

theorem qam16DefaultTable_row {r : Nat} (hr : r < 16) : qam16DefaultTable[r]? = some (qam16DefaultRow r) := by
  rw [qam16DefaultTable, List.getElem?_map, List.getElem?_range hr, Option.map_some]

/-- Row r holds the pattern of r, so the index of a pattern is its value. -/
theorem qam16DefaultTable_bitsToIndex {g : Pattern} (hg : g.length = 4) :
    (qam16Alphabet qam16DefaultTable).bitsToIndex g = patVal g := by
  obtain ⟨hpatterns, -⟩ := patterns_and_levels_of_tableOk qam16DefaultTable_ok
  have hbits : (qam16DefaultRow (patVal g)).bits = g := patOf_patVal hg
  have index := bitsToIndex_of_row hpatterns (qam16DefaultTable_row (patVal_lt hg))
  rwa [hbits] at index

theorem qam16DefaultTable_patVal : qam16DefaultTable.map (fun row => patVal row.bits) = List.range 16 := by
  have hrow : ∀ r ∈ List.range 16, patVal (qam16DefaultRow r).bits = r :=
    fun r hr => patVal_patOf (b := 4) (List.mem_range.mp hr)
  rw [qam16DefaultTable, List.map_map]
  exact (List.map_congr_left hrow).trans (List.map_id _)

theorem qam16DefaultTable_points :
    qam16DefaultTable.map (fun row => (row.i, row.q)) =
      [(3, 3), (3, -3), (3, 1), (3, -1), (-3, 3), (-3, -3), (-3, 1), (-3, -1),
       (1, 3), (1, -3), (1, 1), (1, -1), (-1, 3), (-1, -3), (-1, 1), (-1, -1)] := by
  decide

/-! ### The statements -/

/-- Settles O39, scheme by scheme. -/
theorem alphabetsRoundTrip : Obligations.AlphabetsRoundTrip := by
  intro p sch hp
  cases sch with
  | fsk8 => exact fsk8_round_trip
  | qam16 =>
    obtain ⟨hpatterns, -⟩ := patterns_and_levels_of_tableOk (qam16TableOk_of_paramsOk hp)
    exact qam16_round_trip hpatterns
  | psk8 => exact psk8_round_trip

/-- Settles O57: each row at its index, its coordinates among the levels. -/
theorem qam16FunctionsComeFromTheTable : Obligations.Qam16FunctionsComeFromTheTable := by
  intro p hp
  obtain ⟨hpatterns, hlevels⟩ := patterns_and_levels_of_tableOk (qam16TableOk_of_paramsOk hp)
  refine ⟨fun g => row_at_bitsToIndex hpatterns, fun r hr => ?_⟩
  obtain ⟨row, hrow⟩ := exists_row_of_lt hpatterns hr
  obtain ⟨hi, hq⟩ := hlevels row (List.mem_of_getElem? hrow)
  refine ⟨row, _, _, hrow, bitsToIndex_of_row hpatterns hrow, indexToBits_of_row hrow, indexToPoint_of_row hrow, ?_⟩
  exact List.forall_mem_cons.mpr ⟨numOfInt_level hi, List.forall_mem_singleton.mpr (numOfInt_level hq)⟩

/-- Settles O41: the indices are the Gray codes, and those of 7 and 0 are 4 and 0. -/
theorem adjacentRawValuesGiveAdjacentIndices : Obligations.AdjacentRawValuesGiveAdjacentIndices := by
  intro a ha
  have index := bitsToIndex_patOf_eq_gray a ha
  refine ⟨fun n hn => ?_, index 7 (by decide), index 0 (by decide), by decide⟩
  rw [index n (by omega), index (n + 1) (by omega)]
  exact hamming_gray_succ n hn

/-- Settles O43: by raw value `n` the columns are those of gray(n). -/
theorem fsk8Table : Obligations.Fsk8Table := by
  have index : ∀ n ∈ List.range 8, fsk8Alphabet.bitsToIndex (patOf 3 n) = gray n :=
    fun n hn => fsk8_bitsToIndex_patOf (List.mem_range.mp hn)
  have value : ∀ n ∈ List.range 8, patVal (patOf 3 n) = n := fun n hn => patVal_patOf (List.mem_range.mp hn)
  have point : ∀ n ∈ List.range 8, fsk8Alphabet.indexToPoint (fsk8Alphabet.bitsToIndex (patOf 3 n)) =
      .freq (numOfParts false (integerMag (1000 + 1000 * gray n))) := fun n hn => by
    rw [index n hn, fsk8_indexToPoint (gray_lt n (List.mem_range.mp hn))]
  refine ⟨?indices, ?values, ?points, ?patterns⟩
  case indices => rw [List.map_congr_left index]; decide
  case values => rw [List.map_congr_left value]; decide
  case points => rw [List.map_congr_left point]; decide
  case patterns => decide

/-- Settles O45: the points come from the table's integers, column by column. -/
theorem defaultQam16Table : Obligations.DefaultQam16Table := by
  refine ⟨qam16DefaultTable_ok, qam16DefaultTable_patVal, qam16DefaultTable_points,
    fun g => qam16DefaultTable_bitsToIndex, ?_⟩
  refine (map_indexToPoint (table := qam16DefaultTable) rfl).trans ?_
  rw [qam16DefaultTable_points]
  simp [numOfInt_levels]

end Sys2Proof.Machine
end

section
/-! The transmit datapath (42_modulator.md): the entry checks and effects of FRAME (R200 to R202), MOD (R203 to R205,
R208) and LOOP (R206). -/

namespace Sys2Proof

/-! ### The words of the transmit commands -/

theorem decode_frame_iff (c : CommandWord) : decode c = .ok .frame ↔ c = 0x50000000#32 :=
  decode_ok_iff_eq_of_bare_row (mnemonic := "FRAME") (by decide) rfl rfl

theorem decode_mod_iff (c : CommandWord) : decode c = .ok .mod ↔ c = 0x60000000#32 :=
  decode_ok_iff_eq_of_bare_row (mnemonic := "MOD") (by decide) rfl rfl

theorem decode_loop_iff (c : CommandWord) : decode c = .ok .loop ↔ c = 0x80000000#32 :=
  decode_ok_iff_eq_of_bare_row (mnemonic := "LOOP") (by decide) rfl rfl

end Sys2Proof

namespace Sys2Proof.Machine

/-! ### The elements FRAME takes -/

theorem isBitElement_iff (v : Element) : isBitElement v = true ↔ v = 0#8 ∨ v = 1#8 := by
  simp [isBitElement]

theorem all_isBitElement_iff (vs : List Element) :
    vs.all isBitElement = true ↔ ∀ v ∈ vs, v = 0#8 ∨ v = 1#8 := by
  simp only [List.all_eq_true, isBitElement_iff]

theorem all_isBitElement_eq_false_iff (vs : List Element) :
    vs.all isBitElement = false ↔ ∃ v ∈ vs, v ≠ 0#8 ∧ v ≠ 1#8 := by
  rw [← Bool.not_eq_true, all_isBitElement_iff]
  push Not
  rfl

theorem elementBit_of_bit {v : Element} (h : v = 0#8 ∨ v = 1#8) : elementBit v = (v == 1#8) := by
  obtain rfl | rfl := h <;> rfl

/-! ### The padding: fewer than B zeros, up to the next multiple of B (R201) -/

theorem padCount_lt {b : Nat} (hb : 0 < b) (len : Nat) : padCount b len < b := by
  have := Nat.mod_lt len hb
  unfold padCount
  split <;> omega

theorem add_padCount_mod {b : Nat} (hb : 0 < b) (len : Nat) : (len + padCount b len) % b = 0 := by
  unfold padCount
  split
  case isTrue =>
    have hlt := Nat.mod_lt len hb
    rw [Nat.add_mod, Nat.mod_eq_of_lt (by omega : b - len % b < b), Nat.add_sub_cancel' hlt.le, Nat.mod_self]
  case isFalse whole => simpa using whole

theorem alphabet_b_le (p : Params) (sch : Scheme) : (alphabet p sch).b ≤ 4 := by
  cases sch <;> simp [alphabet_b]

/-- PAD's two bits hold the padding of every scheme. -/
theorem padCount_toNat (p : Params) (sch : Scheme) (len : Nat) :
    (BitVec.ofNat 2 (padCount (alphabet p sch).b len)).toNat = padCount (alphabet p sch).b len :=
  Nat.mod_eq_of_lt ((padCount_lt (alphabet_b_pos p sch) len).trans_le (alphabet_b_le p sch))

/-! ### FRAME -/

theorem exec_frame_of_error {s : State} {e : BlockError} (h : frameChecks s = .error e) :
    exec .frame s = .next (raiseError e s) := by
  rw [exec, execFrame, h, afterChecks_error]

theorem exec_frame_of_no_scheme {s : State} (h : s.scheme = none) :
    exec .frame s = .next (raiseError .unsupportedScheme s) :=
  exec_frame_of_error ((frameChecks_error_iff s _).mpr (.inl ⟨h, rfl⟩))

theorem exec_frame_of_malformed {s : State} (hs : s.scheme ≠ none)
    (h : s.inBits = [] ∨ ∃ v ∈ s.inBits, v ≠ 0#8 ∧ v ≠ 1#8) :
    exec .frame s = .next (raiseError .malformedBitstream s) := by
  rw [← all_isBitElement_eq_false_iff] at h
  exact exec_frame_of_error ((frameChecks_error_iff s _).mpr (.inr ⟨hs, h, rfl⟩))

theorem exec_frame_of_bits {s : State} {sch : Scheme} (hs : s.scheme = some sch) (hne : s.inBits ≠ [])
    (hbits : ∀ v ∈ s.inBits, v = 0#8 ∨ v = 1#8) :
    exec .frame s = .next { s with
      framed := s.inBits.map (fun v => v == 1#8) ++
        List.replicate (padCount (alphabet s.params sch).b s.inBits.length) false
      pad := BitVec.ofNat 2 (padCount (alphabet s.params sch).b s.inBits.length)
      padValid := true
      inBits := []
      code := 0#4 } := by
  have passes : frameChecks s = .ok (alphabet s.params sch) :=
    (frameChecks_ok_iff s _).mpr ⟨sch, hs, rfl, hne, (all_isBitElement_iff _).mpr hbits⟩
  have bits : s.inBits.map elementBit = s.inBits.map (fun v => v == 1#8) :=
    List.map_congr_left fun v hv => elementBit_of_bit (hbits v hv)
  rw [exec, execFrame, passes, afterChecks_ok, frameBits, bits]
  rfl

/-! ### MOD -/

theorem exec_mod_of_error {s : State} {e : BlockError} (h : modChecks s = .error e) :
    exec .mod s = .next (raiseError e s) := by
  rw [exec, execMod, h, afterChecks_error]

theorem exec_mod_of_no_scheme {s : State} (h : s.scheme = none) :
    exec .mod s = .next (raiseError .unsupportedScheme s) :=
  exec_mod_of_error ((modChecks_error_iff s _).mpr (.inl ⟨h, rfl⟩))

theorem exec_mod_of_malformed {s : State} (hs : s.scheme ≠ none)
    (h : s.framed = [] ∨ ∃ sch, s.scheme = some sch ∧ s.framed.length % (alphabet s.params sch).b ≠ 0) :
    exec .mod s = .next (raiseError .malformedBitstream s) := by
  refine exec_mod_of_error ((modChecks_error_iff s _).mpr (.inr ?_))
  obtain hnil | ⟨sch, hsch, hpart⟩ := h
  · obtain ⟨sch, hsch⟩ := Option.ne_none_iff_exists'.mp hs
    exact ⟨sch, hsch, .inl hnil, rfl⟩
  · exact ⟨sch, hsch, .inr hpart, rfl⟩

theorem map_mapSymbol_fst (a : Alphabet) (amp : Binary64) (gs : List Pattern) :
    (gs.map (mapSymbol a amp)).map (·.1) = (gs.map a.bitsToIndex).map (fun i => onehot a.m i amp) := by
  simp only [List.map_map, Function.comp_def, mapSymbol_fst]

theorem map_mapSymbol_snd (a : Alphabet) (amp : Binary64) (gs : List Pattern) :
    (gs.map (mapSymbol a amp)).map (·.2) = (gs.map a.bitsToIndex).map a.indexToPoint := by
  simp only [List.map_map, Function.comp_def, mapSymbol_snd]

theorem exec_mod_of_groups {s : State} {sch : Scheme} (hs : s.scheme = some sch) (hne : s.framed ≠ [])
    (hgroups : s.framed.length % (alphabet s.params sch).b = 0) :
    let a := alphabet s.params sch
    let idxs := (chunks a.b s.framed).map a.bitsToIndex
    exec .mod s = .next { s with
      txOut := idxs.map (fun i => onehot a.m i s.ampTx)
      txPts := idxs.map a.indexToPoint
      txMeta :=
        { metaValid := true, scheme := schemeCode (some sch), m := a.m, padValid := s.padValid, pad := s.pad,
          bpcValid := s.bpcValid, bpc := s.bpc, numSymbols := s.framed.length / a.b }
      framed := []
      code := 0#4 } := by
  intro a idxs
  have passes : modChecks s = .ok a := (modChecks_ok_iff s a).mpr ⟨sch, hs, rfl, hne, hgroups⟩
  rw [exec, execMod, passes, afterChecks_ok]
  simp only [map_mapSymbol_fst, map_mapSymbol_snd, modMeta, hs]
  rfl

/-! ### The groups of a frame (20_memory.md R78) -/

/-- The group of `b` bits that starts at bit `k * b`. -/
def groupAt (b : Nat) (xs : List Bit) (k : Nat) : Pattern := (xs.drop (k * b)).take b

theorem chunks_getElem? {b k : Nat} {xs : List Bit} (hk : k < xs.length / b) :
    (chunks b xs)[k]? = some (groupAt b xs k) := by
  rw [chunks, List.getElem?_map, List.getElem?_range hk]
  rfl

theorem groupAt_length {b k : Nat} {xs : List Bit} (hk : k < xs.length / b) : (groupAt b xs k).length = b := by
  have whole : (k + 1) * b ≤ xs.length := (Nat.mul_le_mul_right b hk).trans (Nat.div_mul_le_self _ b)
  rw [Nat.add_one_mul] at whole
  rw [groupAt, List.length_take, List.length_drop]
  omega

theorem groupAt_getElem? {b j : Nat} (hj : j < b) (xs : List Bit) (k : Nat) :
    (groupAt b xs k)[j]? = xs[k * b + j]? := by
  rw [groupAt, List.getElem?_take_of_lt hj, List.getElem?_drop]

/-! ### LOOP -/

theorem fits_iff (capacity : Option Nat) (n : Nat) :
    fits capacity n = true ↔ capacity = none ∨ ∃ max, capacity = some max ∧ n ≤ max := by
  cases capacity <;> simp

theorem fits_eq_false_iff (capacity : Option Nat) (n : Nat) :
    fits capacity n = false ↔ ∃ max, capacity = some max ∧ max < n := by
  cases capacity <;> simp

theorem exec_loop_of_nil {s : State} (h : s.txOut = []) :
    exec .loop s = .next (raiseError .malformedBitstream s) := by
  rw [exec, execLoop, h, List.isEmpty_nil, Bool.not_true, require_false, afterChecks_error]

theorem exec_loop_of_ne_nil {s : State} (h : s.txOut ≠ []) : exec .loop s = completing (appendRxIn s.txOut s) := by
  have passes : (!s.txOut.isEmpty) = true := by simpa using h
  rw [exec, execLoop, passes, require_true, afterChecks_ok]

/-! ### The statements -/

/-- Settles O24: each failing check with the code it raises. -/
theorem frameChecksInOrder : Obligations.FrameChecksInOrder := fun _ =>
  ⟨exec_frame_of_no_scheme, fun hs hnil => exec_frame_of_malformed hs (.inl hnil),
    fun hs hbad => exec_frame_of_malformed hs (.inr hbad)⟩

/-- Settles O23: the padding fits PAD, and a failing check leaves the effect out. -/
theorem frameBuildsThePaddedFrame : Obligations.FrameBuildsThePaddedFrame := by
  refine ⟨decode_frame_iff, fun s sch hs hne hbits => ?effect, fun s hfail => ?error⟩
  case effect => exact ⟨_, padCount_toNat s.params sch s.inBits.length, exec_frame_of_bits hs hne hbits⟩
  case error =>
    by_cases hs : s.scheme = none
    · exact ⟨1#4, by decide, exec_frame_of_no_scheme hs⟩
    · exact ⟨3#4, by decide, exec_frame_of_malformed hs (hfail.resolve_left hs)⟩

/-- Settles O25: the padding completes the last group and stays below B. -/
theorem framePaddingInvariant : Obligations.FramePaddingInvariant := by
  intro s sch hs hne hbits
  have hpos := alphabet_b_pos s.params sch
  refine ⟨_, exec_frame_of_bits hs hne hbits, ?whole, ?below, ?input, ?zeros⟩
  case whole => simpa using add_padCount_mod hpos s.inBits.length
  case below => simpa only [padCount_toNat] using padCount_lt hpos s.inBits.length
  case input => exact List.take_left' (List.length_map _)
  case zeros => simpa only [padCount_toNat] using List.drop_left' (List.length_map _)

/-- Settles O27: each failing check with the code it raises. -/
theorem modChecksInOrder : Obligations.ModChecksInOrder := fun _ =>
  ⟨exec_mod_of_no_scheme, fun hs hnil => exec_mod_of_malformed hs (.inl hnil),
    fun sch hs hpart => exec_mod_of_malformed (by simp [hs]) (.inr ⟨sch, hs, hpart⟩)⟩

/-- Settles O26: a failing check leaves the effect out. -/
theorem modBuildsTheEnergyVectors : Obligations.ModBuildsTheEnergyVectors := by
  refine ⟨decode_mod_iff, fun s sch => exec_mod_of_groups, fun s hfail => ?error⟩
  by_cases hs : s.scheme = none
  · exact ⟨1#4, by decide, exec_mod_of_no_scheme hs⟩
  · exact ⟨3#4, by decide, exec_mod_of_malformed hs (hfail.resolve_left hs)⟩

/-- Settles O28: row `k` is that of the group at bit `k * B`. -/
theorem modKeepsTheBitOrder : Obligations.ModKeepsTheBitOrder := by
  intro s sch hs hne hgroups
  have rows_length (a : Alphabet) : (((chunks a.b s.framed).map a.bitsToIndex).map
      (fun i => onehot a.m i s.ampTx)).length = s.framed.length / a.b := by
    simp only [List.length_map, chunks_length]
  refine ⟨_, exec_mod_of_groups hs hne hgroups, ?count, fun k hk => ?row⟩
  case count => rw [rows_length, Nat.div_mul_cancel (Nat.dvd_of_mod_eq_zero hgroups)]
  case row =>
    rw [rows_length] at hk
    refine ⟨groupAt _ s.framed k, groupAt_length hk, fun j hj => groupAt_getElem? hj s.framed k, ?_⟩
    rw [List.getElem?_map, List.getElem?_map, chunks_getElem? hk]
    rfl

/-- Settles O31: the append on each side of the capacity, and nothing to append. -/
theorem loopAppendsTheTransmitRows : Obligations.LoopAppendsTheTransmitRows := by
  refine ⟨decode_loop_iff, fun s => ⟨fun hne room => ?within, exec_loop_of_nil, fun hne full => ?past⟩⟩ <;>
    rw [exec_loop_of_ne_nil hne]
  case within => rw [appendRxIn_of_fits ((fits_iff _ _).mpr room)]; rfl
  case past => rw [appendRxIn_of_not_fits ((fits_eq_false_iff _ _).mpr full)]; rfl

end Sys2Proof.Machine
end

section
/-! The slicer (43_detector.md R243, R244): the scan for the lowest index of a least value, over any linear order, and
the metrics it scans, which finite input keeps from being a NaN. -/

namespace Sys2Proof.Machine

/-! ### The scan -/

/-- `b` is the lowest index of a least value among the first `n` values of `g`. -/
def LowestLeast {κ : Type} [LinearOrder κ] (g : Nat → κ) (n b : Nat) : Prop :=
  b < n ∧ (∀ k, k < n → g b ≤ g k) ∧ ∀ k, k < b → g b < g k

section Scan
variable {α κ : Type} [LinearOrder κ] {lt : α → α → Bool} {f : Nat → α} {g : Nat → κ} {m : Nat}

theorem lowestLeast_one (g : Nat → κ) : LowestLeast g 1 0 :=
  ⟨Nat.one_pos, fun k hk => by rw [Nat.lt_one_iff.mp hk], fun k hk => absurd hk k.not_lt_zero⟩

/-- A next value strictly below the least so far takes its place. -/
theorem LowestLeast.succ_of_lt {n b : Nat} (h : LowestLeast g n b) (hlt : g n < g b) : LowestLeast g (n + 1) n := by
  obtain ⟨-, least, -⟩ := h
  have below : ∀ k, k < n → g n < g k := fun k hk => hlt.trans_le (least k hk)
  refine ⟨n.lt_succ_self, fun k hk => ?_, below⟩
  obtain hk | rfl := Nat.lt_succ_iff_lt_or_eq.mp hk
  · exact (below k hk).le
  · exact le_rfl

/-- Any other next value leaves the least so far in place, a tie included. -/
theorem LowestLeast.succ_of_le {n b : Nat} (h : LowestLeast g n b) (hle : g b ≤ g n) : LowestLeast g (n + 1) b := by
  obtain ⟨hb, least, lowest⟩ := h
  refine ⟨Nat.lt_succ_of_lt hb, fun k hk => ?_, lowest⟩
  obtain hk | rfl := Nat.lt_succ_iff_lt_or_eq.mp hk
  · exact least k hk
  · exact hle

/-- The scan keeps the lowest least of the values it has passed, where `lt` compares the values of `g`. -/
theorem leastFrom_lowestLeast (hlt : ∀ j k, j < m → k < m → lt (f j) (f k) = decide (g j < g k))
    {best next count : Nat} (hbest : LowestLeast g next best) (hm : next + count = m) :
    LowestLeast g m (leastFrom lt best (f best) next ((List.range' next count).map f)) := by
  induction count generalizing best next with
  | zero => exact hm ▸ hbest
  | succ count ih =>
    have compare := hlt next best (by omega) (by have := hbest.1; omega)
    rw [List.range'_succ, List.map_cons, leastFrom, compare]
    by_cases h : g next < g best
    · rw [decide_eq_true h, if_pos rfl]
      exact ih (hbest.succ_of_lt h) (by omega)
    · rw [decide_eq_false h, if_neg Bool.false_ne_true]
      exact ih (hbest.succ_of_le (not_lt.mp h)) (by omega)

/-- `leastIndex` answers the lowest index of a least value (R244). -/
theorem leastIndex_lowestLeast (hm : 0 < m) (hlt : ∀ j k, j < m → k < m → lt (f j) (f k) = decide (g j < g k)) :
    LowestLeast g m (leastIndex lt ((List.range m).map f)) := by
  obtain ⟨count, rfl⟩ := Nat.exists_eq_succ_of_ne_zero hm.ne'
  rw [List.range_eq_range', List.range'_succ, List.map_cons, leastIndex]
  exact leastFrom_lowestLeast hlt (lowestLeast_one g) (Nat.add_comm 1 count)

end Scan

/-! ### The numbers a metric is made of -/

/-- A number from +0.0 to +infinity: no NaN, and of the sign plus. -/
def PlusNumber (x : Binary64) : Prop := numIsNan x = false ∧ numSign x = false

theorem infMag_lt_two_pow : infMag < 2 ^ 63 := by decide

theorem numIsNan_numOfParts {mag : Nat} (neg : Bool) (h : mag ≤ infMag) : numIsNan (numOfParts neg mag) = false := by
  rw [numIsNan, numMag_numOfParts neg mag (h.trans_lt infMag_lt_two_pow)]
  exact decide_eq_false h.not_gt

theorem plusNumber_numOfParts {mag : Nat} (h : mag ≤ infMag) : PlusNumber (numOfParts false mag) :=
  ⟨numIsNan_numOfParts false h, numSign_numOfParts false mag (h.trans_lt infMag_lt_two_pow)⟩

theorem plusNumber_numZero : PlusNumber numZero := by
  constructor <;> decide

theorem addFinite_of_zero {x y : Binary64} (h : numUnits x + numUnits y = 0) :
    addFinite x y = numOfParts (numSign x && numSign y) 0 := if_pos h

theorem addFinite_of_ne_zero {x y : Binary64} (h : numUnits x + numUnits y ≠ 0) :
    addFinite x y = numOfParts (decide (numUnits x + numUnits y < 0))
      (roundUnits (numUnits x + numUnits y).natAbs 0) := if_neg h

/-- The sum of two finite numbers may overflow, but is no NaN. -/
theorem numIsNan_addFinite (x y : Binary64) : numIsNan (addFinite x y) = false := by
  by_cases h : numUnits x + numUnits y = 0
  · exact addFinite_of_zero h ▸ numIsNan_numOfParts _ infMag.zero_le
  · exact addFinite_of_ne_zero h ▸ numIsNan_numOfParts _ (roundUnits_le_infMag _ _)

theorem numIsNan_numSub_of_finite {x y : Binary64} (hx : numIsFinite x = true) (hy : numIsFinite y = true) :
    numIsNan (numSub x y) = false :=
  numSub_finite hx hy ▸ numIsNan_addFinite x (numNeg y)

/-- A square is no NaN, infinity not being 0, and its sign is plus. -/
theorem plusNumber_numMul_self {x : Binary64} (hx : numIsNan x = false) : PlusNumber (numMul x x) := by
  obtain hfin | hinf | hnan := num_kinds x
  · rw [numMul_finite hfin hfin, bne_self_eq_false]
    exact plusNumber_numOfParts (roundUnits_le_infMag _ _)
  · have hmag : numMag x = infMag := beq_iff_eq.mp hinf
    have hne : (infMag == 0) = false := by decide
    have square : numMul x x = numOfParts false infMag := by simp [numMul, hx, hinf, hmag, hne]
    exact square ▸ plusNumber_numOfParts le_rfl
  · exact absurd hnan (by simp [hx])

theorem numUnits_nonneg {x : Binary64} (h : numSign x = false) : 0 ≤ numUnits x := by
  simp [numUnits, h]

theorem plusNumber_addFinite {x y : Binary64} (hx : numSign x = false) (hy : numSign y = false) :
    PlusNumber (addFinite x y) := by
  have nonneg : ¬ numUnits x + numUnits y < 0 := not_lt.mpr (Int.add_nonneg (numUnits_nonneg hx) (numUnits_nonneg hy))
  by_cases h : numUnits x + numUnits y = 0
  · rw [addFinite_of_zero h, hx, Bool.false_and]
    exact plusNumber_numOfParts infMag.zero_le
  · rw [addFinite_of_ne_zero h, decide_eq_false nonneg]
    exact plusNumber_numOfParts (roundUnits_le_infMag _ _)

/-- No two infinities of opposite sign meet in a sum of plus numbers. -/
theorem plusNumber_numAdd {x y : Binary64} (hx : PlusNumber x) (hy : PlusNumber y) : PlusNumber (numAdd x y) := by
  obtain ⟨hxnan, hxsign⟩ := hx
  obtain ⟨hynan, hysign⟩ := hy
  simp only [numAdd, hxnan, hynan, hxsign, hysign, Bool.or_self, bne_self_eq_false, Bool.and_false, Bool.false_eq_true,
    if_false]
  split
  case isTrue => exact ⟨hxnan, hxsign⟩
  case isFalse =>
    split
    case isTrue => exact ⟨hynan, hysign⟩
    case isFalse => exact plusNumber_addFinite hxsign hysign

/-! ### The metric (R243) -/

theorem plusNumber_squaredError {x y : Binary64} (hx : numIsFinite x = true) (hy : numIsFinite y = true) :
    PlusNumber (squaredError x y) :=
  plusNumber_numMul_self (numIsNan_numSub_of_finite hx hy)

theorem plusNumber_foldl_numAdd {ds : List Binary64} {acc : Binary64} (hacc : PlusNumber acc)
    (hds : ∀ d ∈ ds, PlusNumber d) : PlusNumber (ds.foldl numAdd acc) := by
  induction ds generalizing acc with
  | nil => exact hacc
  | cons d ds ih =>
    obtain ⟨hd, hrest⟩ := List.forall_mem_cons.mp hds
    exact ih (plusNumber_numAdd hacc hd) hrest

theorem plusNumber_distance {r s : Row} (hr : ∀ x ∈ r, numIsFinite x = true) (hs : ∀ y ∈ s, numIsFinite y = true) :
    PlusNumber (distance r s) := by
  refine plusNumber_foldl_numAdd plusNumber_numZero fun d hd => ?_
  rw [← List.map_uncurry_zip_eq_zipWith] at hd
  obtain ⟨⟨x, y⟩, hxy, rfl⟩ := List.mem_map.mp hd
  obtain ⟨hx, hy⟩ := List.of_mem_zip hxy
  exact plusNumber_squaredError (hr x hx) (hs y hy)

theorem onehot_finite (m i : Nat) {amp : Binary64} (h : numIsFinite amp = true) :
    ∀ x ∈ onehot m i amp, numIsFinite x = true := by
  intro x hx
  obtain ⟨j, -, rfl⟩ := List.mem_map.mp hx
  split
  · exact h
  · decide

/-- On finite input no metric is a NaN or negative (R243). -/
theorem plusNumber_metric (m i : Nat) {amp : Binary64} {r : Row} (hamp : numIsFinite amp = true)
    (hr : ∀ x ∈ r, numIsFinite x = true) : PlusNumber (metric m amp r i) :=
  plusNumber_distance hr (onehot_finite m i hamp)

/-! ### The slicer's choice (R244) -/

/-- Numbers that are no NaN are ordered by their places. -/
theorem numLt_eq_decide_of_not_nan {x y : Binary64} (hx : numIsNan x = false) (hy : numIsNan y = false) :
    numLt x y = decide (numKey x < numKey y) := by
  simp [numLt, hx, hy]

/-- Settles O35: no metric is a NaN, so the metrics are in a linear order and the scan finds their lowest least. -/
theorem slicerPicksTheLowestLeastMetric : Obligations.SlicerPicksTheLowestLeastMetric := by
  intro m amp r hm _ hamp hr
  have compare (j k : Nat) : numLt (metric m amp r j) (metric m amp r k) =
      decide (numKey (metric m amp r j) < numKey (metric m amp r k)) :=
    numLt_eq_decide_of_not_nan (plusNumber_metric m j hamp hr).1 (plusNumber_metric m k hamp hr).1
  obtain ⟨inRange, least, lowest⟩ : LowestLeast (fun k => numKey (metric m amp r k)) m (slice m amp r) :=
    leastIndex_lowestLeast hm fun j k _ _ => compare j k
  refine ⟨inRange, fun k hk => ?_, fun k hk => ?_⟩
  · rw [compare]
    exact decide_eq_false (least k hk).not_gt
  · rw [compare]
    exact decide_eq_true (lowest k hk)

end Sys2Proof.Machine
end

section
/-! The receive datapath (43_detector.md): the entry checks of DET (R241), its effect (R246) and the removal of the
padding (R247). -/

namespace Sys2Proof

theorem decode_det_iff (c : CommandWord) : decode c = .ok .det ↔ c = 0x70000000#32 :=
  decode_ok_iff_eq_of_bare_row (mnemonic := "DET") (by decide) rfl rfl

end Sys2Proof

namespace Sys2Proof.Machine

/-! ### The rows DET takes -/

theorem all_length_iff (rows : List Row) (m : Nat) :
    (rows.all fun row => row.length == m) = true ↔ ∀ row ∈ rows, row.length = m := by
  simp only [List.all_eq_true, beq_iff_eq]

theorem all_length_eq_false_iff (rows : List Row) (m : Nat) :
    (rows.all fun row => row.length == m) = false ↔ ∃ row ∈ rows, row.length ≠ m := by
  simp only [List.all_eq_false, beq_iff_eq, ne_eq]

theorem all_finite_iff (rows : List Row) :
    (rows.all fun row => row.all numIsFinite) = true ↔ ∀ row ∈ rows, ∀ x ∈ row, numIsFinite x = true := by
  simp only [List.all_eq_true]

theorem all_finite_eq_false_iff (rows : List Row) :
    (rows.all fun row => row.all numIsFinite) = false ↔ ∃ row ∈ rows, ∃ x ∈ row, numIsFinite x = false := by
  simp only [List.all_eq_false, Bool.not_eq_true]

/-! ### The checks that fail -/

theorem exec_det_of_error {s : State} {e : BlockError} (h : detChecks s = .error e) :
    exec .det s = .next (raiseError e s) := by
  rw [exec, execDet, h, afterChecks_error]

theorem exec_det_of_no_scheme {s : State} (h : s.scheme = none) :
    exec .det s = .next (raiseError .unsupportedScheme s) :=
  exec_det_of_error ((detChecks_error_iff s _).mpr (.inl ⟨h, rfl⟩))

theorem exec_det_of_malformed {s : State} {sch : Scheme} (hs : s.scheme = some sch)
    (h : s.rxIn = [] ∨ (s.padValid = true ∧ (alphabet s.params sch).b ≤ s.pad.toNat)) :
    exec .det s = .next (raiseError .malformedBitstream s) :=
  exec_det_of_error ((detChecks_error_iff s _).mpr (.inr ⟨sch, hs, .inl ⟨h, rfl⟩⟩))

theorem exec_det_of_length_mismatch {s : State} {sch : Scheme} (hs : s.scheme = some sch)
    (hpad : s.padValid = true → s.pad.toNat < (alphabet s.params sch).b)
    (hrow : ∃ row ∈ s.rxIn, row.length ≠ (alphabet s.params sch).m) :
    exec .det s = .next (raiseError .lengthMismatch s) := by
  obtain ⟨row, hmem, hbad⟩ := hrow
  refine exec_det_of_error ((detChecks_error_iff s _).mpr (.inr ⟨sch, hs, .inr
    ⟨List.ne_nil_of_mem hmem, ?_, .inl ⟨?_, rfl⟩⟩⟩))
  · exact fun ⟨hvalid, hle⟩ => hle.not_gt (hpad hvalid)
  · exact (all_length_eq_false_iff _ _).mpr ⟨row, hmem, hbad⟩

theorem exec_det_of_non_finite {s : State} {sch : Scheme} (hs : s.scheme = some sch)
    (hpad : s.padValid = true → s.pad.toNat < (alphabet s.params sch).b)
    (hlen : ∀ row ∈ s.rxIn, row.length = (alphabet s.params sch).m)
    (hrow : ∃ row ∈ s.rxIn, ∃ x ∈ row, numIsFinite x = false) :
    exec .det s = .next (raiseError .nonFiniteSample s) := by
  obtain ⟨row, hmem, hbad⟩ := hrow
  refine exec_det_of_error ((detChecks_error_iff s _).mpr (.inr ⟨sch, hs, .inr
    ⟨List.ne_nil_of_mem hmem, ?_, .inr ⟨?_, ?_, rfl⟩⟩⟩))
  · exact fun ⟨hvalid, hle⟩ => hle.not_gt (hpad hvalid)
  · exact (all_length_iff _ _).mpr hlen
  · exact (all_finite_eq_false_iff _).mpr ⟨row, hmem, hbad⟩

theorem errorCode_of_detChecks_error {s : State} {e : BlockError} (h : detChecks s = .error e) :
    errorCode e ∈ [1#4, 3#4, 4#4, 7#4] := by
  obtain ⟨-, rfl⟩ | ⟨-, -, ⟨-, rfl⟩ | ⟨-, -, ⟨-, rfl⟩ | ⟨-, -, rfl⟩⟩⟩ := (detChecks_error_iff s e).mp h <;> decide

/-! ### The effect (R246) -/

theorem exec_det_of_rows {s : State} {sch : Scheme} (hs : s.scheme = some sch) (hne : s.rxIn ≠ [])
    (hpad : s.padValid = true → s.pad.toNat < (alphabet s.params sch).b)
    (hlen : ∀ row ∈ s.rxIn, row.length = (alphabet s.params sch).m)
    (hfin : ∀ row ∈ s.rxIn, ∀ x ∈ row, numIsFinite x = true) :
    let a := alphabet s.params sch
    let idxs := s.rxIn.map (slice a.m s.ampRx)
    let all := (idxs.map a.indexToBits).flatten
    exec .det s = .next { s with
      outBits := unpad s all
      rxIdx := idxs
      rxSymbits := idxs.map a.indexToBits
      rxPts := idxs.map a.indexToPoint
      rxIn := []
      code := 0#4 } := by
  intro a idxs all
  have passes : detChecks s = .ok a :=
    (detChecks_ok_iff s a).mpr ⟨sch, hs, rfl, hne, hpad, (all_length_iff _ _).mpr hlen, (all_finite_iff _).mpr hfin⟩
  rw [exec, execDet, passes, afterChecks_ok]
  rfl

/-! ### The recovered bits (R247) -/

theorem unpad_of_unknown {s : State} (h : s.padValid = false) (all : List Bit) : unpad s all = all := by
  simp [unpad, h]

/-- A known padding that the bits hold is dropped at their end. -/
theorem exists_dropped_of_unpad {s : State} {all : List Bit} (hvalid : s.padValid = true)
    (hpad : s.pad.toNat ≤ all.length) :
    ∃ dropped : List Bit, dropped.length = s.pad.toNat ∧ unpad s all ++ dropped = all := by
  refine ⟨all.drop (all.length - s.pad.toNat), ?_, ?_⟩
  · rw [List.length_drop, Nat.sub_sub_self hpad]
  · rw [unpad, if_pos hvalid, List.take_append_drop]

theorem indexToBits_length {p : Params} (hp : paramsOk p = true) (sch : Scheme) {i : Nat}
    (hi : i < (alphabet p sch).m) : ((alphabet p sch).indexToBits i).length = (alphabet p sch).b := by
  cases sch with
  | fsk8 | psk8 => exact patOf_length 3 _
  | qam16 =>
    obtain ⟨hpatterns, -⟩ := patterns_and_levels_of_tableOk (qam16TableOk_of_paramsOk hp)
    obtain ⟨row, hrow⟩ := exists_row_of_lt hpatterns hi
    obtain ⟨-, hbits, -⟩ := (qam16PatternsOk_iff p.qam16Table).mp hpatterns
    exact (congrArg List.length (indexToBits_of_row hrow)).trans (hbits row (List.mem_of_getElem? hrow))

theorem flatten_length_of_forall {b : Nat} {gs : List Pattern} (h : ∀ g ∈ gs, g.length = b) :
    gs.flatten.length = gs.length * b := by
  rw [List.length_flatten, List.sum_eq_card_nsmul _ b (List.forall_mem_map.mpr h), List.length_map, smul_eq_mul]

/-- Every row gives B bits. -/
theorem detected_bits_length {p : Params} (hp : paramsOk p = true) (sch : Scheme) (amp : Binary64) (rows : List Row) :
    (((rows.map (slice (alphabet p sch).m amp)).map (alphabet p sch).indexToBits).flatten).length =
      rows.length * (alphabet p sch).b := by
  have groups : ∀ g ∈ (rows.map (slice (alphabet p sch).m amp)).map (alphabet p sch).indexToBits,
      g.length = (alphabet p sch).b := by
    rw [List.map_map]
    exact List.forall_mem_map.mpr fun row _ => indexToBits_length hp sch (slice_lt _ amp row (alphabet_m_pos p sch))
  rw [flatten_length_of_forall groups, List.length_map, List.length_map]

/-! ### The statements -/

/-- Settles O33: each failing check with the code it raises. -/
theorem detChecksInOrder : Obligations.DetChecksInOrder := fun _ =>
  ⟨exec_det_of_no_scheme, fun _ hs =>
    ⟨fun hnil => exec_det_of_malformed hs (.inl hnil),
      fun hvalid hle => exec_det_of_malformed hs (.inr ⟨hvalid, hle⟩),
      fun hpad => ⟨exec_det_of_length_mismatch hs hpad, exec_det_of_non_finite hs hpad⟩⟩⟩

/-- Settles O32: a failing check leaves the effect out. -/
theorem detDetectsEveryRow : Obligations.DetDetectsEveryRow := by
  refine ⟨decode_det_iff, fun s sch => exec_det_of_rows, fun s hfail => ?error⟩
  cases hchecks : detChecks s with
  | error e => exact ⟨errorCode e, errorCode_of_detChecks_error hchecks, exec_det_of_error hchecks⟩
  | ok a =>
    obtain ⟨sch, hs, -, hne, hpad, hlen, hfin⟩ := (detChecks_ok_iff s a).mp hchecks
    obtain hnone | hnil | ⟨sch', hs', hbad⟩ := hfail
    · cases hs.symm.trans hnone
    · exact absurd hnil hne
    · obtain rfl : sch = sch' := Option.some.inj (hs.symm.trans hs')
      obtain ⟨hvalid, hle⟩ | hwidth | hsample := hbad
      · exact absurd (hpad hvalid) hle.not_gt
      · cases hlen.symm.trans ((all_length_eq_false_iff _ _).mpr hwidth)
      · cases hfin.symm.trans ((all_finite_eq_false_iff _).mpr hsample)

/-- Settles O36: there is a row, so the bits are at least B and hold the padding. -/
theorem detRemovesThePadding : Obligations.DetRemovesThePadding := by
  intro s sch hp hs hne hpad hlen hfin
  have bits := detected_bits_length hp sch s.ampRx s.rxIn
  refine ⟨_, exec_det_of_rows hs hne hpad hlen hfin, bits, fun hvalid => ?_,
    fun hunknown => unpad_of_unknown hunknown _⟩
  have oneRow : (alphabet s.params sch).b ≤ s.rxIn.length * (alphabet s.params sch).b :=
    Nat.le_mul_of_pos_left _ (List.length_pos_of_ne_nil hne)
  exact exists_dropped_of_unpad hvalid (bits.symm ▸ (hpad hvalid).le.trans oneRow)

end Sys2Proof.Machine
end

section
/-! The exceptions (60_exceptions.md): which command words are Illegal and what issuing one does (R282), and that an issued
word which reports an error changes only STATUS (R286). -/

namespace Sys2Proof

/-! ### The three causes of an Illegal word, in terms of its fields -/

theorem and_rsv_eq_zero_iff (c : CommandWord) : c &&& 0x00FFFFFF#32 = 0#32 ↔ rsvField c = 0#24 := by
  have opc_clear : opcField c &&& 0#4 = 0#4 := BitVec.and_zero
  have arg_clear : argField c &&& 0#4 = 0#4 := BitVec.and_zero
  have rsv_kept : rsvField c &&& 0xFFFFFF#24 = rsvField c := BitVec.and_allOnes
  rw [word_eq_iff, opcField_and, argField_and, rsvField_and]
  exact (and_iff_right opc_clear).trans ((and_iff_right arg_clear).trans (Eq.congr_left rsv_kept))

theorem and_opc_eq_pattern_iff {r : OpcodeRow} (hr : r ∈ opcodeMap) (c : CommandWord) :
    c &&& 0xF0000000#32 = r.pattern ↔ opcField c = opcField r.pattern := by
  obtain ⟨-, harg0, hrsv0⟩ := opcodeMap_fields r hr
  have opc_kept : opcField c &&& 0xF#4 = opcField c := BitVec.and_allOnes
  have arg_clear : argField c &&& 0#4 = 0#4 := BitVec.and_zero
  have rsv_clear : rsvField c &&& 0#24 = 0#24 := BitVec.and_zero
  rw [word_eq_iff, opcField_and, argField_and, rsvField_and, harg0, hrsv0]
  exact (and_iff_left ⟨arg_clear, rsv_clear⟩).trans (Eq.congr_left opc_kept)

theorem and_undefinedArg_eq_zero_iff (mask c : CommandWord) :
    c &&& (mask &&& 0x0F000000#32) = 0#32 ↔ argField c &&& argField mask = 0#4 := by
  have opc_clear : opcField c &&& (opcField mask &&& 0#4) = 0#4 := by simp
  have arg_kept : argField c &&& (argField mask &&& 0xF#4) = argField c &&& argField mask :=
    congrArg (argField c &&& ·) BitVec.and_allOnes
  have rsv_clear : rsvField c &&& (rsvField mask &&& 0#24) = 0#24 := by simp
  simp only [word_eq_iff, opcField_and, argField_and, rsvField_and]
  exact (and_iff_right opc_clear).trans ((and_iff_left rsv_clear).trans (Eq.congr_left arg_kept))

/-! ### The decoder, row by row -/

theorem undefinedBits_noField : ∀ arg : BitVec 4, (arg != 0#4) = (arg &&& 0xF#4 != 0#4) := by decide

/-- Under a row's opcode the decoder reads a command, unless an ARG bit under the row's mask is set. -/
theorem decodeFields_of_row : ∀ r ∈ opcodeMap, ∀ arg : BitVec 4, ∃ i,
    decodeFields (opcField r.pattern) arg = withClearBits (arg &&& argField r.mask != 0#4) i := by
  simp only [opcodeMap, List.forall_mem_cons]
  have noField (i : Instr) (arg : BitVec 4) := congrArg (withClearBits · i) (undefinedBits_noField arg)
  have oneBitField (i : Instr) (arg : BitVec 4) := congrArg (withClearBits · i) (undefinedBits_oneBitField arg)
  have twoBitField (i : Instr) (arg : BitVec 4) := congrArg (withClearBits · i) (undefinedBits_twoBitField arg)
  have threeBitFields (i : Instr) (arg : BitVec 4) := congrArg (withClearBits · i) (undefinedBits_threeBitFields arg)
  refine ⟨?nop, ?setcfg, ?setamp, ?setbpc, ?setpad, ?frame, ?mod, ?det, ?loop, ?clrerr, ?flush, List.forall_mem_nil _⟩
  case nop | frame | mod | det | loop | clrerr => exact fun arg => ⟨_, noField _ arg⟩
  case setamp | setbpc => exact fun arg => ⟨_, oneBitField _ arg⟩
  case setcfg => exact fun arg => ⟨_, twoBitField _ arg⟩
  case setpad | flush => exact fun arg => ⟨_, threeBitFields _ arg⟩

/-- Every opcode below 0xB has a row. -/
theorem exists_row_of_opcode : ∀ opc : BitVec 4, opc.toNat < 0xB → ∃ r ∈ opcodeMap, opc = opcField r.pattern := by
  decide

/-- A word decodes when none of the three causes of R282 applies. -/
theorem exists_decode_ok_iff (c : CommandWord) :
    (∃ i, decode c = .ok i) ↔
      c.toNat / 2 ^ 28 < 0xB ∧ rsvField c = 0#24 ∧
        ∀ r ∈ opcodeMap, opcField c = opcField r.pattern → argField c &&& argField r.mask = 0#4 := by
  constructor
  · rintro ⟨i, hdec⟩
    obtain ⟨hrsv, hfields⟩ := decode_ok_iff.mp hdec
    refine ⟨opcOf_of_decode_ok hdec ▸ opcOf_lt i, hrsv, fun r hr hopc => ?_⟩
    obtain ⟨j, reads⟩ := decodeFields_of_row r hr (argField c)
    rw [hopc, reads, withClearBits_ok_iff, bne_eq_false_iff_eq] at hfields
    exact hfields.1
  · rintro ⟨hlt, hrsv, hclear⟩
    obtain ⟨r, hr, hopc⟩ := exists_row_of_opcode (opcField c) (opcField_toNat c ▸ hlt)
    obtain ⟨i, reads⟩ := decodeFields_of_row r hr (argField c)
    refine ⟨i, decode_ok_iff.mpr ⟨hrsv, ?_⟩⟩
    rw [hopc, reads, withClearBits_ok_iff, bne_eq_false_iff_eq]
    exact ⟨hclear r hr hopc, rfl⟩

/-- The causes of R282, as masks of the word. -/
theorem decode_illegal_iff (c : CommandWord) :
    (∀ i, decode c ≠ .ok i) ↔
      (0xB ≤ c.toNat / 2 ^ 28 ∨ c &&& 0x00FFFFFF#32 ≠ 0#32 ∨
        ∃ r ∈ opcodeMap, c &&& 0xF0000000#32 = r.pattern ∧ c &&& (r.mask &&& 0x0F000000#32) ≠ 0#32) := by
  have undefinedBit : (∃ r ∈ opcodeMap, c &&& 0xF0000000#32 = r.pattern ∧ c &&& (r.mask &&& 0x0F000000#32) ≠ 0#32) ↔
      ¬∀ r ∈ opcodeMap, opcField c = opcField r.pattern → argField c &&& argField r.mask = 0#4 := by
    push Not
    refine exists_congr fun r => and_congr_right fun hr => ?_
    exact and_congr (and_opc_eq_pattern_iff hr c) (and_undefinedArg_eq_zero_iff r.mask c).not
  have reservedBit : c &&& 0x00FFFFFF#32 ≠ 0#32 ↔ ¬rsvField c = 0#24 := (and_rsv_eq_zero_iff c).not
  rw [undefinedBit, reservedBit, ← not_lt, ← not_and_or, ← not_and_or, ← exists_decode_ok_iff, not_exists]

end Sys2Proof

namespace Sys2Proof.Machine

/-! ### Issuing a command word -/

theorem transact_issue_of_ok {c : CommandWord} {i : Instr} (h : decode c = .ok i) (s : State) :
    transact (.issue c) s = exec i s := by
  simp [transact, doIssue, h]

theorem transact_issue_of_illegal {c : CommandWord} (h : ∀ i, decode c ≠ .ok i) (s : State) :
    transact (.issue c) s = .next (raiseError .illegalCommand s) := by
  cases hdec : decode c with
  | ok i => exact absurd hdec (h i)
  | error e => simp [transact, doIssue, hdec]

/-! ### The statements -/

/-- Settles O3. -/
theorem illegalWordsTakeTheErrorPath : Obligations.IllegalWordsTakeTheErrorPath := fun c =>
  ⟨decode_illegal_iff c, transact_issue_of_illegal⟩

/-- Settles O49: an Illegal word takes the error path, and a command that does not complete takes it too. -/
theorem errorsChangeOnlyStatus : Obligations.ErrorsChangeOnlyStatus := by
  intro c s t h hcode
  by_cases hdec : ∃ i, decode c = .ok i
  · obtain ⟨i, hi⟩ := hdec
    obtain ⟨completed, -⟩ | ⟨-, failed⟩ := completionWritesCodeZero i s t (transact_issue_of_ok hi s ▸ h)
    · exact absurd completed hcode
    · exact failed
  · rw [transact_issue_of_illegal (not_exists.mp hdec)] at h
    obtain rfl := Host.Outcome.next.inj h
    rfl

end Sys2Proof.Machine
end

section
/-! Reset (70_reset_and_hazards.md R310): the block after a reset event is the reset state with the parameters and the
host's side of the state before. -/

namespace Sys2Proof.Machine

/-! ### The reset event -/

theorem handle_reset (s : State) : handle .reset s = .next (resetBlock s) := rfl

/-- The reset state is itself the outcome of a reset, so that what holds after every reset holds of it too. -/
theorem resetBlock_reset : resetBlock State.reset = State.reset := rfl

/-! ### STATUS after reset -/

theorem statusWord_of_clear {s : State} (hcode : s.code = 0#4) (hseen : s.errSeen = false) : statusWord s = 0#32 := by
  simp [statusWord, hcode, hseen]

theorem statusWord_resetBlock (s : State) : statusWord (resetBlock s) = 0#32 :=
  statusWord_of_clear (resetBlock_code s) (resetBlock_errSeen s)

/-! ### The statement -/

/-- Settles O15: both states it speaks of are outcomes of a reset, and only the parameters are kept. -/
theorem resetRestoresEveryRegister : Obligations.ResetRestoresEveryRegister := by
  intro s
  refine ⟨resetBlock s, handle_reset s, fun u hu => ?_⟩
  obtain ⟨before, rfl⟩ : ∃ before, u = resetBlock before := by
    obtain rfl | rfl := hu
    · exact ⟨s, rfl⟩
    · exact ⟨State.reset, resetBlock_reset.symm⟩
  simp [statusWord_resetBlock, schemeCode, State.reset, TxMeta.zero, numOne]

end Sys2Proof.Machine
end

section
/-! The decoder and the encoder agree (30_encoding.md R100 to R112): a word decodes to a command when its three fields
hold the command's numbers. Then the step and the host's transactions (20_memory.md R72, R77, R85). -/

namespace Sys2Proof

/-! ### The fields of an encoding -/

theorem argOf_lt {i : Instr} (h : wellFormed i = true) : argOf i < 2 ^ 4 := by
  cases i with
  | nop | frame | mod | det | loop | clrerr => decide
  | setcfg sch => exact (schemeCode sch).isLt.trans (by decide)
  | setamp sel => exact (Bool.toNat_lt _).trans (by decide)
  | setbpc v => exact (Bool.toNat_lt v).trans (by decide)
  | setpad v padv =>
    have hp : padv < 4 := of_decide_eq_true h
    have := Bool.toNat_lt v
    rw [argOf]
    omega
  | flush ci cf cr =>
    have := Bool.toNat_lt ci
    have := Bool.toNat_lt cf
    have := Bool.toNat_lt cr
    rw [argOf]
    omega

theorem commandWord_toNat {opc arg : Nat} (hopc : opc < 2 ^ 4) (harg : arg < 2 ^ 4) :
    (commandWord opc arg).toNat = opc * 2 ^ 28 + arg * 2 ^ 24 := by
  rw [commandWord, BitVec.toNat_ofNat, Nat.mod_eq_of_lt (by omega)]

theorem opcField_commandWord {opc arg : Nat} (hopc : opc < 2 ^ 4) (harg : arg < 2 ^ 4) :
    (opcField (commandWord opc arg)).toNat = opc := by
  rw [opcField_toNat, commandWord_toNat hopc harg]
  omega

theorem argField_commandWord {opc arg : Nat} (hopc : opc < 2 ^ 4) (harg : arg < 2 ^ 4) :
    (argField (commandWord opc arg)).toNat = arg := by
  rw [argField, BitVec.extractLsb'_toNat, commandWord_toNat hopc harg, Nat.shiftRight_eq_div_pow]
  omega

theorem rsvField_commandWord {opc arg : Nat} (hopc : opc < 2 ^ 4) (harg : arg < 2 ^ 4) :
    rsvField (commandWord opc arg) = 0#24 := by
  apply BitVec.eq_of_toNat_eq
  rw [rsvField, BitVec.extractLsb'_toNat, commandWord_toNat hopc harg, Nat.shiftRight_zero, BitVec.toNat_ofNat]
  omega

/-- A word is the encoding of a well-formed command when its fields hold the command's numbers. -/
theorem encode_eq_iff {i : Instr} (h : wellFormed i = true) (c : CommandWord) :
    encode i = c ↔ (opcField c).toNat = opcOf i ∧ (argField c).toNat = argOf i ∧ rsvField c = 0#24 := by
  have hopc : opcOf i < 2 ^ 4 := (opcOf_lt i).trans (by decide)
  have harg := argOf_lt h
  rw [encode, eq_comm, word_eq_iff, ← BitVec.toNat_inj, ← BitVec.toNat_inj (x := argField c),
    opcField_commandWord hopc harg, argField_commandWord hopc harg, rsvField_commandWord hopc harg]

/-! ### What the decoder reads from ARG is what the encoder writes there -/

theorem argOf_setcfg_of_clear : ∀ arg : BitVec 4, (arg.getLsbD 3 || arg.getLsbD 2) = false →
    argOf (.setcfg (schemeOfCode (arg.extractLsb' 0 2))) = arg.toNat := by decide

theorem argOf_oneBit_of_clear : ∀ arg : BitVec 4, (arg.extractLsb' 1 3 != 0#3) = false →
    argOf (.setamp (ampSelOfBit (arg.getLsbD 0))) = arg.toNat ∧ argOf (.setbpc (arg.getLsbD 0)) = arg.toNat := by decide

theorem argOf_threeBits_of_clear : ∀ arg : BitVec 4, arg.getLsbD 3 = false →
    argOf (.setpad (arg.getLsbD 0) (arg.extractLsb' 1 2).toNat) = arg.toNat ∧
      argOf (.flush (arg.getLsbD 0) (arg.getLsbD 1) (arg.getLsbD 2)) = arg.toNat := by decide

theorem toNat_of_noBits : ∀ arg : BitVec 4, (arg != 0#4) = false → arg.toNat = 0 := by decide

theorem argOf_of_decodeFields_ok {opc arg : BitVec 4} {i : Instr} (h : decodeFields opc arg = .ok i) :
    wellFormed i = true ∧ arg.toNat = argOf i := by
  unfold decodeFields at h
  split at h <;> simp only [withClearBits_ok_iff, reduceCtorEq] at h <;> obtain ⟨hclear, rfl⟩ := h
  case h_2 => exact ⟨rfl, (argOf_setcfg_of_clear arg hclear).symm⟩
  case h_3 => exact ⟨rfl, (argOf_oneBit_of_clear arg hclear).1.symm⟩
  case h_4 => exact ⟨rfl, (argOf_oneBit_of_clear arg hclear).2.symm⟩
  case h_5 => exact ⟨decide_eq_true (BitVec.isLt _), (argOf_threeBits_of_clear arg hclear).1.symm⟩
  case h_11 => exact ⟨rfl, (argOf_threeBits_of_clear arg hclear).2.symm⟩
  all_goals exact ⟨rfl, toNat_of_noBits arg hclear⟩

/-- The decoder reads every well-formed command back from its numbers. -/
theorem decodeFields_encoded {i : Instr} (h : wellFormed i = true) :
    decodeFields (BitVec.ofNat 4 (opcOf i)) (BitVec.ofNat 4 (argOf i)) = .ok i := by
  cases i with
  | nop | frame | mod | det | loop | clrerr => rfl
  | setcfg sch => obtain _ | _ | _ | _ := sch <;> rfl
  | setamp sel => cases sel <;> rfl
  | setbpc v => cases v <;> rfl
  | setpad v padv =>
    have hp : padv < 4 := of_decide_eq_true h
    interval_cases padv <;> cases v <;> rfl
  | flush ci cf cr =>
    revert ci cf cr
    decide

/-- The decoder reads a command from exactly its numbers. -/
theorem decodeFields_ok_iff {opc arg : BitVec 4} {i : Instr} :
    decodeFields opc arg = .ok i ↔ wellFormed i = true ∧ opc.toNat = opcOf i ∧ arg.toNat = argOf i := by
  constructor
  · intro h
    obtain ⟨hwf, harg⟩ := argOf_of_decodeFields_ok h
    exact ⟨hwf, toNat_of_decodeFields_ok h, harg⟩
  · rintro ⟨hwf, hopc, harg⟩
    have encoded := decodeFields_encoded hwf
    rwa [← hopc, ← harg, BitVec.ofNat_toNat, BitVec.ofNat_toNat, BitVec.setWidth_eq, BitVec.setWidth_eq] at encoded

/-- Settles O2: a word decodes to a command exactly when its three fields are the command's. -/
theorem decodeAndEncodeAgree : Obligations.DecodeAndEncodeAgree := by
  intro c i
  rw [decode_ok_iff, decodeFields_ok_iff]
  constructor
  · rintro ⟨hrsv, hwf, hopc, harg⟩
    exact ⟨hwf, (encode_eq_iff hwf c).mpr ⟨hopc, harg, hrsv⟩⟩
  · rintro ⟨hwf, henc⟩
    obtain ⟨hopc, harg, hrsv⟩ := (encode_eq_iff hwf c).mp henc
    exact ⟨hrsv, hwf, hopc, harg⟩

theorem decode_encode {i : Instr} (h : wellFormed i = true) : decode (encode i) = .ok i :=
  (decodeAndEncodeAgree _ i).mpr ⟨h, rfl⟩

/-- Settles O4: each word is the encoding of its command. -/
theorem writtenWordsDecode : Obligations.WrittenWordsDecode := by
  refine ⟨?_, ?_, ?_, ?_, ?_, ?_, ?_, ?_, ?_, ?_, ?_, ?_, ?_, ?_, ?_, ?_, ?_, ?_, ?_⟩ <;>
    exact (decodeAndEncodeAgree _ _).mpr ⟨rfl, by decide⟩

end Sys2Proof

namespace Sys2Proof.Machine

/-! ### The step and the host's transactions (20_memory.md R72, R77, R85) -/

theorem step_of_cons {s : State} {e : Event} {q : List Event} (h : s.hostQueue = e :: q) :
    step s = handle e { s with hostQueue := q } := by
  rw [step, stepEvent, fetch_cons h]

theorem step_of_nil {s : State} (h : s.hostQueue = []) : step s = .next s := by
  rw [step, stepEvent, fetch_nil h]

theorem step_of_issue {s : State} {c : CommandWord} {i : Instr} {q : List Event}
    (hq : s.hostQueue = .transaction (.issue c) :: q) (hdec : decode c = .ok i) :
    step s = exec i { s with hostQueue := q } :=
  (step_of_cons hq).trans (transact_issue_of_ok hdec _)

theorem tableWord_toNat (c : CommandWord) : tableWord 32 c.toNat = c := by
  rw [tableWord, Nat.mod_eq_of_lt c.isLt, BitVec.ofNat_toNat, BitVec.setWidth_eq]

@[simp] theorem transact_read (x : StateName) (s : State) :
    transact (.read x) s = .next { s with hostRead := some (readState s x) } := rfl

/-- Settles O6. -/
theorem stepTakesTheOldestEvent : Obligations.StepTakesTheOldestEvent := fun _ _ _ => step_of_cons

/-- Settles O7. -/
theorem stepRunsTheDecodedCommand : Obligations.StepRunsTheDecodedCommand := fun _ _ _ _ => step_of_issue

/-- Settles O8: the placed word decodes back, and taking it from the event list leaves the state it was placed in. -/
theorem placedCommandRunsNext : Obligations.PlacedCommandRunsNext := by
  intro s i hwf
  rw [State.withFetchWord, tableWord_toNat]
  exact step_of_issue (placeCommand_hostQueue (encode i) s) (decode_encode hwf)

/-- Settles O9. -/
theorem idleBlockWaits : Obligations.IdleBlockWaits := fun _ => step_of_nil

/-- Settles O13: no name reads what the latest READ returned, so the second READ answers as the first. -/
theorem readReturnsTheNamedValue : Obligations.ReadReturnsTheNamedValue := by
  intro x s
  cases x <;> exact ⟨transact_read _ s, transact_read _ _⟩

/-- A flag is the number of its bit 0. -/
theorem testBit_toNat (b : Bool) (j : Nat) : b.toNat.testBit j = (decide (j = 0) && b) := by
  cases b <;> cases j <;> simp [Nat.testBit_succ]

/-- Settles O14: CODE is below bit 4, bits 4 to 7 are reserved, and ERRSEEN is bit 8. -/
theorem statusWordLayout : Obligations.StatusWordLayout := by
  intro s k
  have code_lt : s.code.toNat < 2 ^ 8 := s.code.isLt.trans (by decide)
  have bit : s.code.toNat.testBit k = s.code.getLsbD k := rfl
  rw [statusWord, BitVec.getLsbD_ofNat, Nat.mul_comm, Nat.testBit_two_pow_mul_add _ code_lt, bit, testBit_toNat]
  obtain hcode | hreserved | hseen : k < 4 ∨ (4 ≤ k ∧ k < 8) ∨ 8 ≤ k := by omega
  · have hlow : k < 32 ∧ k < 8 := by omega
    simp [hcode, hlow]
  · have hnone : ¬ k < 4 ∧ k ≠ 8 := by omega
    simp [hreserved, hnone]
  · have hhigh : ¬ k < 4 ∧ ¬ k < 8 := by omega
    have hbit : k - 8 = 0 ↔ k = 8 := by omega
    simp only [hhigh, hbit, if_false]
    by_cases h8 : k = 8 <;> simp [h8]

end Sys2Proof.Machine
end

section
/-! The rules of every command (40_control.md R131, 60_exceptions.md R280 to R290): which error the entry checks of a
command report, and what a command does that reports none. -/

namespace Sys2Proof.Machine

/-! ### The error a command reports -/

/-- The error of a failed entry check. -/
def failure {α : Type} : Except BlockError α → Option BlockError
  | .error e => some e
  | .ok _ => none

@[simp] theorem failure_eq_some_iff {α : Type} {checks : Except BlockError α} {e : BlockError} :
    failure checks = some e ↔ checks = .error e := by
  cases checks <;> simp [failure]

@[simp] theorem failure_require {e : BlockError} {holds : Bool} :
    failure (require e holds) = if holds then none else some e := by
  cases holds <;> rfl

/-- The error that the entry checks of a command report: those of `exec`, command by command. -/
def reportedError (s : State) : Instr → Option BlockError
  | .setcfg sch => failure (require .unsupportedScheme sch.isSome)
  | .setamp _ => failure (require .invalidAmplitude (amplitudeLegal s.data))
  | .frame => failure (frameChecks s)
  | .mod => failure (modChecks s)
  | .det => failure (detChecks s)
  | .loop => failure (require .malformedBitstream (!s.txOut.isEmpty))
  | .nop | .setbpc _ | .setpad _ _ | .clrerr | .flush _ _ _ => none

/-- What a command writes whose checks pass. -/
inductive Completes (s : State) : Instr → State → Prop
  | nop : Completes s .nop (complete s)
  | setcfg (sch : Scheme) : Completes s (.setcfg (some sch)) (complete { s with scheme := some sch })
  | setamp (sel : AmpSel) (legal : amplitudeLegal s.data = true) :
      Completes s (.setamp sel) (complete (writeAmplitude sel s.data s))
  | setbpc (v : Bool) :
      Completes s (.setbpc v) (complete { s with bpc := if v then dataTag s else 0#32, bpcValid := v })
  | setpad (v : Bool) (padv : Nat) :
      Completes s (.setpad v padv) (complete { s with pad := padOperand padv, padValid := v })
  | frame (a : Alphabet) (passes : frameChecks s = .ok a) :
      Completes s .frame (complete { s with
        framed := frameBits a.b s.inBits
        pad := BitVec.ofNat 2 (padCount a.b s.inBits.length)
        padValid := true
        inBits := [] })
  | mod (a : Alphabet) (passes : modChecks s = .ok a) :
      Completes s .mod (complete { s with
        txOut := ((chunks a.b s.framed).map (mapSymbol a s.ampTx)).map (·.1)
        txPts := ((chunks a.b s.framed).map (mapSymbol a s.ampTx)).map (·.2)
        txMeta := modMeta a s
        framed := [] })
  | det (a : Alphabet) (passes : detChecks s = .ok a) :
      Completes s .det (complete { s with
        outBits := unpad s ((s.rxIn.map (slice a.m s.ampRx)).map a.indexToBits).flatten
        rxIdx := s.rxIn.map (slice a.m s.ampRx)
        rxSymbits := (s.rxIn.map (slice a.m s.ampRx)).map a.indexToBits
        rxPts := (s.rxIn.map (slice a.m s.ampRx)).map a.indexToPoint
        rxIn := [] })
  | loop (rows : s.txOut ≠ []) (room : fits s.params.maxRxRows (s.rxIn.length + s.txOut.length) = true) :
      Completes s .loop (complete { s with rxIn := s.rxIn ++ s.txOut })
  | clrerr : Completes s .clrerr (clearErrors s)
  | flush (ci cf cr : Bool) :
      Completes s (.flush ci cf cr) (complete { s with
        inBits := if ci then [] else s.inBits
        framed := if cf then [] else s.framed
        rxIn := if cr then [] else s.rxIn })

/-- The three outcomes of a command: the error path of a failed check, its effect, or LOOP without room. -/
inductive Outcomes (s : State) (i : Instr) : Result → Prop
  | error (e : BlockError) (reports : reportedError s i = some e) : Outcomes s i (.next (raiseError e s))
  | effect (t : State) (passes : reportedError s i = none) (completes : Completes s i t) : Outcomes s i (.next t)
  | noRoom (is_loop : i = .loop) (full : fits s.params.maxRxRows (s.rxIn.length + s.txOut.length) = false) :
      Outcomes s i (.refused .rxInFull)

/-- A command of entry checks and an effect has these outcomes. -/
theorem outcomes_of_afterChecks {α : Type} {s : State} {i : Instr} {checks : Except BlockError α}
    (hchecks : reportedError s i = failure checks) {effect : α → State}
    (heffect : ∀ a, checks = .ok a → Completes s i (effect a)) :
    Outcomes s i (afterChecks checks s fun a => .next (effect a)) := by
  cases checks with
  | error e => exact .error e hchecks
  | ok a => exact .effect _ hchecks (heffect a rfl)

theorem outcomes_of_loop (s : State) : Outcomes s .loop (exec .loop s) := by
  by_cases hnil : s.txOut = []
  · rw [exec_loop_of_nil hnil]
    exact .error _ (by simp [reportedError, hnil])
  · have passes : reportedError s .loop = none := by simp [reportedError, hnil]
    rw [exec_loop_of_ne_nil hnil]
    cases room : fits s.params.maxRxRows (s.rxIn.length + s.txOut.length) with
    | true => rw [appendRxIn_of_fits room]; exact .effect _ passes (.loop hnil room)
    | false => rw [appendRxIn_of_not_fits room]; exact .noRoom rfl room

theorem exec_outcomes (s : State) (i : Instr) : Outcomes s i (exec i s) := by
  cases i with
  | nop => exact .effect _ rfl .nop
  | setcfg sch =>
    cases sch with
    | none => exact .error _ rfl
    | some sch => exact .effect _ rfl (.setcfg sch)
  | setamp sel =>
    refine outcomes_of_afterChecks rfl fun _ hpass => .setamp sel ?_
    cases legal : amplitudeLegal s.data with
    | true => rfl
    | false => cases legal ▸ hpass
  | setbpc v => exact .effect _ rfl (.setbpc v)
  | setpad v padv => exact .effect _ rfl (.setpad v padv)
  | frame => exact outcomes_of_afterChecks rfl fun a passes => .frame a passes
  | mod => exact outcomes_of_afterChecks rfl fun a passes => .mod a passes
  | det => exact outcomes_of_afterChecks rfl fun a passes => .det a passes
  | loop => exact outcomes_of_loop s
  | clrerr => exact .effect _ rfl .clrerr
  | flush ci cf cr => exact .effect _ rfl (.flush ci cf cr)

/-- A command that answers a next state took the error path or completed. -/
theorem exec_next_cases {i : Instr} {s t : State} (h : exec i s = .next t) :
    (∃ e, reportedError s i = some e ∧ t = raiseError e s) ∨ (reportedError s i = none ∧ Completes s i t) := by
  have out := exec_outcomes s i
  rw [h] at out
  cases out with
  | error e reports => exact .inl ⟨e, reports, rfl⟩
  | effect _ passes completes => exact .inr ⟨passes, completes⟩

theorem code_of_completes {s t : State} {i : Instr} (h : Completes s i t) : t.code = codeOk := by
  cases h <;> rfl

theorem errorCode_injective : Function.Injective errorCode := by
  intro e f
  cases e <;> cases f <;> decide

/-- CODE holds an error's code exactly when the command reports that error. -/
theorem code_eq_errorCode_iff {i : Instr} {s t : State} (h : exec i s = .next t) (e : BlockError) :
    t.code = errorCode e ↔ reportedError s i = some e := by
  obtain ⟨f, reports, rfl⟩ | ⟨passes, completes⟩ := exec_next_cases h
  · rw [raiseError_code, errorCode_injective.eq_iff, reports, Option.some_inj]
  · rw [code_of_completes completes, passes]
    exact iff_of_false (errorCode_ne_zero e).symm nofun

/-! ### Which command reports which error (60_exceptions.md R281 to R288) -/

theorem reports_unsupportedScheme_iff (s : State) (i : Instr) :
    reportedError s i = some .unsupportedScheme ↔
      i = .setcfg none ∨ ((i = .frame ∨ i = .mod ∨ i = .det) ∧ s.scheme = none) := by
  cases i with
  | setcfg sch => cases sch <;> simp [reportedError]
  | frame => simp [reportedError, frameChecks_error_iff]
  | mod => simp [reportedError, modChecks_error_iff]
  | det => simp [reportedError, detChecks_error_iff]
  | nop | setamp | setbpc | setpad | loop | clrerr | flush => simp [reportedError]

theorem reports_malformedBitstream_iff (s : State) (i : Instr) :
    reportedError s i = some .malformedBitstream ↔
      (i = .frame ∧ s.scheme ≠ none ∧ (s.inBits = [] ∨ ∃ v ∈ s.inBits, v ≠ 0#8 ∧ v ≠ 1#8)) ∨
      (i = .mod ∧ ∃ sch, s.scheme = some sch ∧
        (s.framed = [] ∨ s.framed.length % (alphabet s.params sch).b ≠ 0)) ∨
      (i = .loop ∧ s.txOut = []) ∨
      (i = .det ∧ ∃ sch, s.scheme = some sch ∧
        (s.rxIn = [] ∨ (s.padValid = true ∧ (alphabet s.params sch).b ≤ s.pad.toNat))) := by
  cases i with
  | frame => simp only [reportedError, failure_eq_some_iff, frameChecks_error_iff, all_isBitElement_eq_false_iff,
      reduceCtorEq, and_false, false_or, and_true, true_and, false_and, or_false]
  | mod => simp [reportedError, modChecks_error_iff]
  | det => simp [reportedError, detChecks_error_iff]
  | loop => simp [reportedError]
  | setcfg | nop | setamp | setbpc | setpad | clrerr | flush => simp [reportedError]

theorem detChecks_lengthMismatch_iff (s : State) :
    detChecks s = .error .lengthMismatch ↔ ∃ sch, s.scheme = some sch ∧
      ¬(s.padValid = true ∧ (alphabet s.params sch).b ≤ s.pad.toNat) ∧
      ∃ row ∈ s.rxIn, row.length ≠ (alphabet s.params sch).m := by
  simp only [detChecks_error_iff, all_length_eq_false_iff, reduceCtorEq, and_false, false_or, or_false, and_true]
  refine exists_congr fun sch => and_congr_right fun _ => ?_
  exact and_iff_right_of_imp fun ⟨_, _, hmem, _⟩ => List.ne_nil_of_mem hmem

theorem detChecks_nonFiniteSample_iff (s : State) :
    detChecks s = .error .nonFiniteSample ↔ ∃ sch, s.scheme = some sch ∧
      ¬(s.padValid = true ∧ (alphabet s.params sch).b ≤ s.pad.toNat) ∧
      (∀ row ∈ s.rxIn, row.length = (alphabet s.params sch).m) ∧
      ∃ row ∈ s.rxIn, ∃ x ∈ row, numIsFinite x = false := by
  simp only [detChecks_error_iff, all_length_iff, all_finite_eq_false_iff, reduceCtorEq, and_false, false_or, and_true]
  refine exists_congr fun sch => and_congr_right fun _ => ?_
  exact and_iff_right_of_imp fun ⟨_, _, _, hmem, _⟩ => List.ne_nil_of_mem hmem

theorem reports_lengthMismatch_iff (s : State) (i : Instr) :
    reportedError s i = some .lengthMismatch ↔
      i = .det ∧ ∃ sch, s.scheme = some sch ∧
        ¬(s.padValid = true ∧ (alphabet s.params sch).b ≤ s.pad.toNat) ∧
        ∃ row ∈ s.rxIn, row.length ≠ (alphabet s.params sch).m := by
  cases i with
  | det => exact failure_eq_some_iff.trans ((detChecks_lengthMismatch_iff s).trans (and_iff_right rfl).symm)
  | frame => simp [reportedError, frameChecks_error_iff]
  | mod => simp [reportedError, modChecks_error_iff]
  | setcfg | nop | setamp | setbpc | setpad | loop | clrerr | flush => simp [reportedError]

theorem reports_nonFiniteSample_iff (s : State) (i : Instr) :
    reportedError s i = some .nonFiniteSample ↔
      i = .det ∧ ∃ sch, s.scheme = some sch ∧
        ¬(s.padValid = true ∧ (alphabet s.params sch).b ≤ s.pad.toNat) ∧
        (∀ row ∈ s.rxIn, row.length = (alphabet s.params sch).m) ∧
        ∃ row ∈ s.rxIn, ∃ x ∈ row, numIsFinite x = false := by
  cases i with
  | det => exact failure_eq_some_iff.trans ((detChecks_nonFiniteSample_iff s).trans (and_iff_right rfl).symm)
  | frame => simp [reportedError, frameChecks_error_iff]
  | mod => simp [reportedError, modChecks_error_iff]
  | setcfg | nop | setamp | setbpc | setpad | loop | clrerr | flush => simp [reportedError]

theorem reports_invalidAmplitude_iff (s : State) (i : Instr) :
    reportedError s i = some .invalidAmplitude ↔
      ∃ sel, i = .setamp sel ∧ ¬(numIsFinite s.data = true ∧ numLt numZero s.data = true) := by
  cases i with
  | setamp sel => simp [reportedError, amplitudeLegal]
  | frame => simp [reportedError, frameChecks_error_iff]
  | mod => simp [reportedError, modChecks_error_iff]
  | det => simp [reportedError, detChecks_error_iff]
  | setcfg | nop | setbpc | setpad | loop | clrerr | flush => simp [reportedError]

/-- The codes 2 and 5 are reported by no command (R282, R288). -/
theorem errorCode_of_reported {s : State} {i : Instr} {e : BlockError} (h : reportedError s i = some e) :
    errorCode e ∈ [1#4, 3#4, 4#4, 6#4, 7#4] := by
  cases e with
  | unsupportedScheme | malformedBitstream | lengthMismatch | invalidAmplitude | nonFiniteSample => decide
  | invalidChannelParameter | illegalCommand =>
    cases i <;> simp [reportedError, frameChecks_error_iff, modChecks_error_iff, detChecks_error_iff] at h

theorem code_mem_of_exec {i : Instr} {s t : State} (h : exec i s = .next t) :
    t.code ∈ [0#4, 1#4, 3#4, 4#4, 6#4, 7#4] := by
  obtain ⟨e, reports, rfl⟩ | ⟨-, completes⟩ := exec_next_cases h
  · exact List.mem_cons_of_mem _ (errorCode_of_reported reports)
  · rw [code_of_completes completes]
    decide

/-- Settles O50: CODE holds the code of the error that the command's checks report. -/
theorem eachErrorHasItsCases : Obligations.EachErrorHasItsCases := fun i s _ h =>
  ⟨(code_eq_errorCode_iff h .unsupportedScheme).trans (reports_unsupportedScheme_iff s i),
    (code_eq_errorCode_iff h .malformedBitstream).trans (reports_malformedBitstream_iff s i),
    (code_eq_errorCode_iff h .lengthMismatch).trans (reports_lengthMismatch_iff s i),
    (code_eq_errorCode_iff h .invalidAmplitude).trans (reports_invalidAmplitude_iff s i),
    (code_eq_errorCode_iff h .nonFiniteSample).trans (reports_nonFiniteSample_iff s i),
    code_mem_of_exec h⟩

/-! ### What a command leaves unchanged -/

/-- Settles O51: the error path keeps every register, and each effect names the registers it writes. -/
theorem everyRegisterHasItsWriters : Obligations.EveryRegisterHasItsWriters := by
  intro i s t h
  obtain ⟨e, -, rfl⟩ | ⟨-, completes⟩ := exec_next_cases h
  · simp
  · cases completes with
    | nop | setcfg | setbpc | setpad | frame | mod | det | loop | clrerr => simp
    | setamp sel => cases sel <;> simp
    | flush ci cf cr => cases ci <;> cases cf <;> cases cr <;> simp

/-! ### Every command completes -/

/-- Settles O53: only LOOP without room answers no state. -/
theorem everyCommandCompletes : Obligations.EveryCommandCompletes := by
  intro i s
  have out := exec_outcomes s i
  generalize exec i s = o at out
  cases out with
  | error e => exact .inl ⟨_, rfl⟩
  | effect t => exact .inl ⟨t, rfl⟩
  | noRoom is_loop full => exact .inr ⟨rfl, is_loop, (fits_eq_false_iff _ _).mp full⟩

/-! ### STATUS steers no command (R290) -/

/-- Two outcomes that differ in ERRSEEN at most. -/
def AgreeButErrSeen : Result → Result → Prop
  | .next t, .next u => u.code = t.code ∧ { u with errSeen := t.errSeen } = t
  | .refused r, .refused r' => r = r'
  | _, _ => False

/-- Checks that fail alike write the same CODE. -/
theorem agreeButErrSeen_afterChecks {α : Type} (checks : Except BlockError α) (s : State) (c : BitVec 4) (e : Bool)
    {body body' : α → Result} (h : ∀ a, AgreeButErrSeen (body a) (body' a)) :
    AgreeButErrSeen (afterChecks checks s body) (afterChecks checks { s with code := c, errSeen := e } body') := by
  cases checks with
  | error _ => exact ⟨rfl, rfl⟩
  | ok a => exact h a

theorem agreeButErrSeen_append (rows : List Row) (s : State) (c : BitVec 4) (e : Bool) :
    AgreeButErrSeen (completing (appendRxIn rows s))
      (completing (appendRxIn rows { s with code := c, errSeen := e })) := by
  cases room : fits s.params.maxRxRows (s.rxIn.length + rows.length) with
  | true =>
    rw [appendRxIn_of_fits room, appendRxIn_of_fits (s := { s with code := c, errSeen := e }) room]
    exact ⟨rfl, rfl⟩
  | false =>
    rw [appendRxIn_of_not_fits room, appendRxIn_of_not_fits (s := { s with code := c, errSeen := e }) room]
    exact rfl

theorem exec_agreeButErrSeen (i : Instr) (s : State) (c : BitVec 4) (e : Bool) :
    AgreeButErrSeen (exec i s) (exec i { s with code := c, errSeen := e }) := by
  cases i with
  | nop | setbpc | setpad | clrerr | flush => exact ⟨rfl, rfl⟩
  | setcfg | frame | mod | det => exact agreeButErrSeen_afterChecks _ s c e fun _ => ⟨rfl, rfl⟩
  | setamp sel =>
    refine agreeButErrSeen_afterChecks _ s c e fun _ => ?_
    cases sel <;> exact ⟨rfl, rfl⟩
  | loop => exact agreeButErrSeen_afterChecks _ s c e fun _ => agreeButErrSeen_append s.txOut s c e

/-- Settles O52. -/
theorem statusSteersNoCommand : Obligations.StatusSteersNoCommand := exec_agreeButErrSeen

end Sys2Proof.Machine
end

section
/-! What every step keeps: the invariant of the block (10_state.md R34 to R45, 20_memory.md R84), and the working off of
the host's events (20_memory.md R72, R85). -/

namespace Sys2Proof.Machine

/-! ### The invariant -/

theorem blockInv_iff (s : State) :
    blockInv s = true ↔ configOk s = true ∧ statusOk s = true ∧ capacityRespected s = true ∧ txOk s = true ∧
      rxOk s = true := by
  simp only [blockInv, Bool.and_eq_true, and_assoc]

theorem configOk_iff (s : State) :
    configOk s = true ↔ amplitudeLegal s.ampTx = true ∧ amplitudeLegal s.ampRx = true ∧ paramsOk s.params = true := by
  simp only [configOk, Bool.and_eq_true, and_assoc]

theorem capacityRespected_iff (s : State) :
    capacityRespected s = true ↔
      fits s.params.maxInBits s.inBits.length = true ∧ fits s.params.maxRxRows s.rxIn.length = true := by
  simp only [capacityRespected, Bool.and_eq_true]

theorem fits_zero (capacity : Option Nat) : fits capacity 0 = true := by
  cases capacity <;> simp

/-! ### A command that completes keeps each part of it -/

section
variable {s t : State} {i : Instr}

theorem configOk_of_completes (h : Completes s i t) (inv : configOk s = true) : configOk t = true := by
  cases h with
  | nop | setcfg | setbpc | setpad | frame | mod | det | loop | clrerr | flush => exact inv
  | setamp sel legal =>
    obtain ⟨htx, hrx, hparams⟩ := (configOk_iff s).mp inv
    cases sel with
    | tx => exact (configOk_iff _).mpr ⟨legal, hrx, hparams⟩
    | rx => exact (configOk_iff _).mpr ⟨htx, legal, hparams⟩

theorem statusOk_of_code_zero (h : t.code = 0#4) : statusOk t = true := by
  simp [statusOk, legalCodes, h]

theorem capacityRespected_of_completes (h : Completes s i t) (inv : capacityRespected s = true) :
    capacityRespected t = true := by
  obtain ⟨hin, hrx⟩ := (capacityRespected_iff s).mp inv
  rw [capacityRespected_iff]
  cases h with
  | nop | setcfg | setbpc | setpad | mod | clrerr => exact ⟨hin, hrx⟩
  | setamp sel => cases sel <;> exact ⟨hin, hrx⟩
  | frame => exact ⟨fits_zero _, hrx⟩
  | det => exact ⟨hin, fits_zero _⟩
  | loop _ room =>
    rw [← List.length_append] at room
    exact ⟨hin, room⟩
  | flush ci cf cr =>
    refine ⟨?_, ?_⟩
    · cases ci with
      | true => exact fits_zero _
      | false => exact hin
    · cases cr with
      | true => exact fits_zero _
      | false => exact hrx

/-- MOD writes a row of M components and a point for each group of the frame. -/
theorem txOk_of_completes (h : Completes s i t) (inv : txOk s = true) : txOk t = true := by
  cases h with
  | nop | setcfg | setbpc | setpad | frame | det | loop | clrerr | flush => exact inv
  | setamp sel => cases sel <;> exact inv
  | mod a => simp [txOk, modMeta, mapSymbol_fst]

theorem unpad_isPrefixOf (s : State) (all : List Bit) : (unpad s all).isPrefixOf all = true := by
  rw [List.isPrefixOf_iff_prefix, unpad]
  split
  · exact List.take_prefix _ _
  · exact List.prefix_rfl

/-- DET writes a pattern and a point for each index, and the patterns but for the padding. -/
theorem rxOk_of_completes (h : Completes s i t) (inv : rxOk s = true) : rxOk t = true := by
  cases h with
  | nop | setcfg | setbpc | setpad | frame | mod | loop | clrerr | flush => exact inv
  | setamp sel => cases sel <;> exact inv
  | det a passes =>
    obtain ⟨sch, -, rfl, -⟩ := (detChecks_ok_iff s a).mp passes
    have index_lt (row : Row) : slice (alphabet s.params sch).m s.ampRx row < 16 :=
      (slice_lt _ _ row (alphabet_m_pos s.params sch)).trans_le (alphabet_m_le s.params sch)
    simp [rxOk, unpad_isPrefixOf, index_lt]

/-! ### The error path, the host's transactions and reset keep it -/

theorem blockInv_of_completes (h : Completes s i t) (inv : blockInv s = true) : blockInv t = true := by
  obtain ⟨hconfig, -, hcapacity, htx, hrx⟩ := (blockInv_iff s).mp inv
  exact (blockInv_iff t).mpr ⟨configOk_of_completes h hconfig, statusOk_of_code_zero (code_of_completes h),
    capacityRespected_of_completes h hcapacity, txOk_of_completes h htx, rxOk_of_completes h hrx⟩

theorem blockInv_raiseError {e : BlockError} (written : errorCode e ∈ legalCodes) (inv : blockInv s = true) :
    blockInv (raiseError e s) = true := by
  obtain ⟨hconfig, -, hcapacity, htx, hrx⟩ := (blockInv_iff s).mp inv
  have hstatus : statusOk (raiseError e s) = true := by simp [statusOk, written]
  exact (blockInv_iff _).mpr ⟨hconfig, hstatus, hcapacity, htx, hrx⟩

theorem blockInv_of_exec (h : exec i s = .next t) (inv : blockInv s = true) : blockInv t = true := by
  obtain ⟨e, reports, rfl⟩ | ⟨-, completes⟩ := exec_next_cases h
  · have codes : ∀ c ∈ [1#4, 3#4, 4#4, 6#4, 7#4], c ∈ legalCodes := by decide
    exact blockInv_raiseError (codes _ (errorCode_of_reported reports)) inv
  · exact blockInv_of_completes completes inv

theorem blockInv_of_issue {c : CommandWord} (h : transact (.issue c) s = .next t) (inv : blockInv s = true) :
    blockInv t = true := by
  by_cases hdec : ∃ i, decode c = .ok i
  · obtain ⟨i, hi⟩ := hdec
    exact blockInv_of_exec (transact_issue_of_ok hi s ▸ h) inv
  · rw [transact_issue_of_illegal (not_exists.mp hdec)] at h
    obtain rfl := Host.Outcome.next.inj h
    exact blockInv_raiseError (by decide) inv

theorem blockInv_appendInBits {vs : List Element} (h : appendInBits vs s = .next t) (inv : blockInv s = true) :
    blockInv t = true := by
  obtain ⟨hconfig, hstatus, hcapacity, htx, hrx⟩ := (blockInv_iff s).mp inv
  obtain ⟨room, ht⟩ | ⟨-, ht⟩ := appendInBits_cases h
  · obtain rfl := Host.Outcome.next.inj ht
    rw [← List.length_append] at room
    obtain ⟨-, hrows⟩ := (capacityRespected_iff s).mp hcapacity
    exact (blockInv_iff _).mpr ⟨hconfig, hstatus, (capacityRespected_iff _).mpr ⟨room, hrows⟩, htx, hrx⟩
  · cases ht

theorem blockInv_appendRxIn {rows : List Row} (h : appendRxIn rows s = .next t) (inv : blockInv s = true) :
    blockInv t = true := by
  obtain ⟨hconfig, hstatus, hcapacity, htx, hrx⟩ := (blockInv_iff s).mp inv
  obtain ⟨room, ht⟩ | ⟨-, ht⟩ := appendRxIn_cases h
  · obtain rfl := Host.Outcome.next.inj ht
    rw [← List.length_append] at room
    obtain ⟨hbits, -⟩ := (capacityRespected_iff s).mp hcapacity
    exact (blockInv_iff _).mpr ⟨hconfig, hstatus, (capacityRespected_iff _).mpr ⟨hbits, room⟩, htx, hrx⟩
  · cases ht

theorem blockInv_resetBlock (hparams : paramsOk s.params = true) : blockInv (resetBlock s) = true := by
  have legal : amplitudeLegal numOne = true := by decide
  have hconfig := (configOk_iff (resetBlock s)).mpr ⟨legal, legal, hparams⟩
  have hcapacity := (capacityRespected_iff (resetBlock s)).mpr ⟨fits_zero _, fits_zero _⟩
  exact (blockInv_iff _).mpr ⟨hconfig, statusOk_of_code_zero rfl, hcapacity, rfl, rfl⟩

theorem blockInv_of_handle {e : Event} (h : handle e s = .next t) (inv : blockInv s = true) : blockInv t = true := by
  cases e with
  | reset =>
    obtain ⟨hconfig, -⟩ := (blockInv_iff s).mp inv
    obtain ⟨-, -, hparams⟩ := (configOk_iff s).mp hconfig
    obtain rfl := Host.Outcome.next.inj h
    exact blockInv_resetBlock hparams
  | transaction event =>
    cases event with
    | wdata | read =>
      obtain rfl := Host.Outcome.next.inj h
      exact inv
    | pushbit => exact blockInv_appendInBits h inv
    | pushrow => exact blockInv_appendRxIn h inv
    | issue => exact blockInv_of_issue h inv

end

/-- Settles O56: no part of the invariant reads the event list, and every event keeps each part. -/
theorem stepKeepsTheInvariant : Obligations.StepKeepsTheInvariant := by
  intro s t inv h
  cases hq : s.hostQueue with
  | nil =>
    obtain rfl := Host.Outcome.next.inj (step_of_nil hq ▸ h)
    exact inv
  | cons e q => exact blockInv_of_handle (s := { s with hostQueue := q }) (step_of_cons hq ▸ h) inv

theorem paramsOk_referenceParams : paramsOk referenceParams = true := by
  simp [paramsOk, referenceParams, qam16DefaultTable_ok, capacityOk]

/-- Settles O55: the reset state is the outcome of a reset, and the reference parameters meet their constraints. -/
theorem invariantHoldsAtReset : Obligations.InvariantHoldsAtReset :=
  blockInv_resetBlock (s := State.reset) paramsOk_referenceParams

/-! ### Working off the events (20_memory.md R84, R85) -/

/-- With unbounded buffers every event is handled, and the events behind it wait on. -/
theorem handle_next_of_unbounded (e : Event) {s : State} (hin : s.params.maxInBits = none)
    (hrx : s.params.maxRxRows = none) :
    ∃ t, handle e s = .next t ∧ t.hostQueue = s.hostQueue ∧ t.params = s.params := by
  have inRoom (vs : List Element) : fits s.params.maxInBits (s.inBits.length + vs.length) = true := by simp [hin]
  have rxRoom (rows : List Row) : fits s.params.maxRxRows (s.rxIn.length + rows.length) = true := by simp [hrx]
  cases e with
  | reset => exact ⟨_, rfl, rfl, rfl⟩
  | transaction event =>
    cases event with
    | wdata | read => exact ⟨_, rfl, rfl, rfl⟩
    | pushbit v => exact ⟨_, appendInBits_of_fits (inRoom [v]), rfl, rfl⟩
    | pushrow row => exact ⟨_, appendRxIn_of_fits (rxRoom [row]), rfl, rfl⟩
    | issue c =>
      rw [handle]
      by_cases hdec : ∃ i, decode c = .ok i
      · obtain ⟨i, hi⟩ := hdec
        rw [transact_issue_of_ok hi]
        obtain ⟨t, ht⟩ | ⟨-, -, n, hn, -⟩ := everyCommandCompletes i s
        · obtain ⟨-, -, -, -, -, -, -, -, -, -, -, hparams, hqueue, -⟩ := everyRegisterHasItsWriters i s t ht
          exact ⟨t, ht, hqueue, hparams⟩
        · cases hrx.symm.trans hn
      · rw [transact_issue_of_illegal (not_exists.mp hdec)]
        exact ⟨_, rfl, rfl, rfl⟩

theorem run_succ_of_step {s u : State} (h : step s = .next u) (k : Nat) :
    Host.Core.run Sys2Proof.core (k + 1) s = Host.Core.run Sys2Proof.core k u := by
  have hstep : Sys2Proof.core.step s = .next u := h
  simp only [Host.Core.run, hstep]

theorem run_of_unbounded {q : List Event} {s : State} (hq : s.hostQueue = q) (hin : s.params.maxInBits = none)
    (hrx : s.params.maxRxRows = none) :
    ∃ t : State, Host.Core.run Sys2Proof.core q.length s = .next t ∧ t.hostQueue = [] ∧ t.params = s.params := by
  induction q generalizing s with
  | nil => exact ⟨s, rfl, hq, rfl⟩
  | cons e q ih =>
    obtain ⟨u, hu, hqueue, hparams⟩ := handle_next_of_unbounded e (s := { s with hostQueue := q }) hin hrx
    obtain ⟨t, ht, hnil, hkept⟩ := ih hqueue (hparams ▸ hin) (hparams ▸ hrx)
    exact ⟨t, (run_succ_of_step ((step_of_cons hq).trans hu) q.length).trans ht, hnil, hkept.trans hparams⟩

/-- Settles O54: by induction on the events that wait. -/
theorem everyEventSequenceIsWorkedOff : Obligations.EveryEventSequenceIsWorkedOff := fun _ hin hrx =>
  run_of_unbounded rfl hin hrx

end Sys2Proof.Machine
end

section
/-! Rounding (00_scope.md R9): the finite magnitudes and their values, and that the rounded magnitude of a number is the
nearest one, the even one on a tie. -/

namespace Sys2Proof.Machine

/-! ### The values of the magnitudes -/

/-- `q` units of 2^e, with 53 bits kept: the leading bit of a normal number counts in the exponent field, and a carry
out of the kept bits runs into it. -/
theorem magUnits_of_significand {e q : Nat} (hnormal : e = 0 ∨ 2 ^ 52 ≤ q) (hq : q ≤ 2 ^ 53) :
    magUnits (e * 2 ^ 52 + q) = q * 2 ^ e := by
  obtain hsub | hfull | rfl : q < 2 ^ 52 ∨ (2 ^ 52 ≤ q ∧ q < 2 ^ 53) ∨ q = 2 ^ 53 := by omega
  · obtain rfl : e = 0 := by omega
    rw [Nat.zero_mul, Nat.zero_add, magUnits, if_pos (by omega), Nat.pow_zero, Nat.mul_one]
  · have hexp : (e * 2 ^ 52 + q) / 2 ^ 52 = e + 1 := by omega
    have hfrac : 2 ^ 52 + (e * 2 ^ 52 + q) % 2 ^ 52 = q := by omega
    rw [magUnits, hexp, hfrac, if_neg e.succ_ne_zero, Nat.add_sub_cancel]
  · have hexp : (e * 2 ^ 52 + 2 ^ 53) / 2 ^ 52 = e + 2 := by omega
    have hfrac : 2 ^ 52 + (e * 2 ^ 52 + 2 ^ 53) % 2 ^ 52 = 2 ^ 52 := by omega
    rw [magUnits, hexp, hfrac, if_neg (e + 1).succ_ne_zero, Nat.pow_succ' (n := 52), Nat.mul_comm 2, Nat.mul_assoc,
      ← Nat.pow_succ']
    rfl

/-- Every magnitude is such a significand at such an exponent. -/
theorem exists_significand (m : Nat) :
    ∃ e q, m = e * 2 ^ 52 + q ∧ (e = 0 ∨ 2 ^ 52 ≤ q) ∧ q < 2 ^ 53 :=
  ⟨m / 2 ^ 52 - 1, m - (m / 2 ^ 52 - 1) * 2 ^ 52, by omega, by omega, by omega⟩

/-- The magnitudes are in the order of their values. -/
theorem magUnits_strictMono : StrictMono magUnits := by
  refine strictMono_nat_of_lt_succ fun m => ?_
  obtain ⟨e, q, rfl, hnormal, hq⟩ := exists_significand m
  rw [Nat.add_assoc, magUnits_of_significand hnormal hq.le, magUnits_of_significand (by omega) hq]
  exact Nat.mul_lt_mul_of_pos_right q.lt_succ_self (Nat.two_pow_pos e)

theorem magUnits_zero : magUnits 0 = 0 := by decide

/-! ### Rounding to a multiple of a power of two -/

/-- The rounded quotient is within half a unit, and even where it is half a unit off. -/
theorem roundShift_spec (n sh : Nat) :
    2 * (roundShift n sh * 2 ^ sh) ≤ 2 * n + 2 ^ sh ∧ 2 * n ≤ 2 * (roundShift n sh * 2 ^ sh) + 2 ^ sh ∧
      (2 * (roundShift n sh * 2 ^ sh) = 2 * n + 2 ^ sh ∨ 2 * n = 2 * (roundShift n sh * 2 ^ sh) + 2 ^ sh →
        roundShift n sh % 2 = 0) := by
  have hpos := Nat.two_pow_pos sh
  have hrem := Nat.mod_lt n hpos
  have hdiv := Nat.div_add_mod' n (2 ^ sh)
  simp only [roundShift, Bool.or_eq_true, Bool.and_eq_true, decide_eq_true_eq, beq_iff_eq]
  have hnext := Nat.add_one_mul (n / 2 ^ sh) (2 ^ sh)
  split
  · omega
  · omega

/-- Multiples of a unit are at least a unit apart. -/
theorem mul_add_le_of_lt {p q : Nat} (h : p < q) (u : Nat) : p * u + u ≤ q * u := by
  rw [← Nat.add_one_mul]
  exact Nat.mul_le_mul_right u h

theorem roundShift_le {n sh p : Nat} (h : n ≤ p * 2 ^ sh) : roundShift n sh ≤ p := by
  by_contra hlt
  have := mul_add_le_of_lt (not_le.mp hlt) (2 ^ sh)
  have := Nat.two_pow_pos sh
  obtain ⟨hlow, -, -⟩ := roundShift_spec n sh
  omega

theorem le_roundShift {n sh p : Nat} (h : p * 2 ^ sh ≤ n) : p ≤ roundShift n sh := by
  by_contra hlt
  have := mul_add_le_of_lt (not_le.mp hlt) (2 ^ sh)
  have := Nat.two_pow_pos sh
  obtain ⟨-, hhigh, -⟩ := roundShift_spec n sh
  omega

/-- `x` is nearer to `n` than `y` is, or as near and `tie` holds. -/
def NearestOrTie (n x y : Nat) (tie : Prop) : Prop :=
  Nat.dist n x < Nat.dist n y ∨ (Nat.dist n x = Nat.dist n y ∧ tie)

/-- Any other multiple is farther, or as far and the answer is even. -/
theorem roundShift_nearest {n sh p : Nat} (h : p ≠ roundShift n sh) :
    NearestOrTie n (roundShift n sh * 2 ^ sh) (p * 2 ^ sh) (roundShift n sh % 2 = 0) := by
  obtain ⟨hlow, hhigh, heven⟩ := roundShift_spec n sh
  unfold NearestOrTie Nat.dist
  obtain hlt | hgt := Nat.lt_or_gt_of_ne h
  · have := mul_add_le_of_lt hlt (2 ^ sh)
    omega
  · have := mul_add_le_of_lt hgt (2 ^ sh)
    omega

/-! ### Rounding to 53 bits -/

/-- How many bits rounding drops: all but the 53 leading ones, and those below 2^-1074. -/
def droppedBits (n k : Nat) : Nat := max k (n.log2 - 52)

/-- The magnitude that rounding answers where it does not overflow. -/
def keptMag (n k : Nat) : Nat := (droppedBits n k - k) * 2 ^ 52 + roundShift n (droppedBits n k)

theorem roundUnits_eq (n k : Nat) : roundUnits n k = min (keptMag n k) infMag := rfl

theorem le_droppedBits (n k : Nat) : k ≤ droppedBits n k := Nat.le_max_left _ _

theorem lt_two_pow_droppedBits (n k : Nat) : n < 2 ^ (droppedBits n k + 53) := by
  have hsh : n.log2 - 52 ≤ droppedBits n k := Nat.le_max_right _ _
  exact Nat.lt_log2_self.trans_le (Nat.pow_le_pow_right Nat.two_pos (by omega))

/-- Where bits of a normal number are dropped, 53 are kept. -/
theorem two_pow_droppedBits_le {n k : Nat} (h : k < droppedBits n k) : 2 ^ (droppedBits n k + 52) ≤ n := by
  have hsh : droppedBits n k = n.log2 - 52 ∧ n.log2 ≠ 0 := by
    unfold droppedBits at h ⊢
    omega
  have hn : n ≠ 0 := by
    rintro rfl
    exact hsh.2 (by decide)
  exact (Nat.pow_le_pow_right Nat.two_pos (by omega)).trans (Nat.log2_self_le hn)

theorem keptBits_le (n k : Nat) : roundShift n (droppedBits n k) ≤ 2 ^ 53 := by
  have hlt := lt_two_pow_droppedBits n k
  rw [Nat.add_comm, Nat.pow_add] at hlt
  exact roundShift_le hlt.le

theorem keptBits_normal (n k : Nat) : droppedBits n k - k = 0 ∨ 2 ^ 52 ≤ roundShift n (droppedBits n k) := by
  obtain hle | hlt := le_or_gt (droppedBits n k) k
  · exact .inl (by omega)
  · have hpow := two_pow_droppedBits_le hlt
    rw [Nat.add_comm, Nat.pow_add] at hpow
    exact .inr (le_roundShift hpow)

/-- The value of the kept magnitude is the rounded multiple. -/
theorem magUnits_keptMag (n k : Nat) :
    magUnits (keptMag n k) * 2 ^ k = roundShift n (droppedBits n k) * 2 ^ droppedBits n k := by
  rw [keptMag, magUnits_of_significand (keptBits_normal n k) (keptBits_le n k), Nat.mul_assoc, ← Nat.pow_add,
    Nat.sub_add_cancel (le_droppedBits n k)]

theorem keptMag_even_iff (n k : Nat) : keptMag n k % 2 = 0 ↔ roundShift n (droppedBits n k) % 2 = 0 := by
  unfold keptMag
  omega

/-- A finer magnitude lies below the kept bits, where no number is nearer than the least kept one. -/
theorem keptMag_nearest_of_finer {n k m : Nat} (hdrop : k < droppedBits n k)
    (hm : magUnits m * 2 ^ k < 2 ^ 52 * 2 ^ droppedBits n k) :
    Nat.dist n (magUnits (keptMag n k) * 2 ^ k) < Nat.dist n (magUnits m * 2 ^ k) := by
  have hn := two_pow_droppedBits_le hdrop
  rw [Nat.add_comm, Nat.pow_add] at hn
  have least : Nat.dist n (2 ^ 52 * 2 ^ droppedBits n k) < Nat.dist n (magUnits m * 2 ^ k) := by
    unfold Nat.dist
    omega
  rw [magUnits_keptMag]
  by_cases hq : 2 ^ 52 = roundShift n (droppedBits n k)
  · exact hq ▸ least
  · obtain hlt | ⟨heq, -⟩ := roundShift_nearest hq
    · exact hlt.trans least
    · exact heq.trans_lt least

/-- Every other magnitude is farther, or as far and the kept one is even. -/
theorem keptMag_nearest {n k m : Nat} (hm : m ≠ keptMag n k) :
    NearestOrTie n (magUnits (keptMag n k) * 2 ^ k) (magUnits m * 2 ^ k) (keptMag n k % 2 = 0) := by
  have hk := le_droppedBits n k
  obtain ⟨e, p, rfl, hnormal, hp⟩ := exists_significand m
  have value := magUnits_of_significand hnormal hp.le
  obtain hcoarse | hfiner := le_or_gt (droppedBits n k) (e + k)
  · obtain ⟨d, hd⟩ := Nat.exists_eq_add_of_le hcoarse
    have multiple : magUnits (e * 2 ^ 52 + p) * 2 ^ k = p * 2 ^ d * 2 ^ droppedBits n k := by
      rw [value, Nat.mul_assoc, Nat.mul_assoc, ← Nat.pow_add, ← Nat.pow_add, hd, Nat.add_comm d]
    have hne : p * 2 ^ d ≠ roundShift n (droppedBits n k) := by
      intro heq
      rw [heq, ← magUnits_keptMag] at multiple
      exact hm (magUnits_strictMono.injective (Nat.eq_of_mul_eq_mul_right (Nat.two_pow_pos k) multiple))
    rw [magUnits_keptMag, multiple, keptMag_even_iff]
    exact roundShift_nearest hne
  · refine .inl (keptMag_nearest_of_finer (by omega) ?_)
    calc magUnits (e * 2 ^ 52 + p) * 2 ^ k = p * 2 ^ (e + k) := by rw [value, Nat.mul_assoc, ← Nat.pow_add]
      _ < 2 ^ 53 * 2 ^ (e + k) := Nat.mul_lt_mul_of_pos_right hp (Nat.two_pow_pos _)
      _ = 2 ^ 52 * 2 ^ (e + k + 1) := by rw [Nat.pow_succ _ (e + k), Nat.pow_succ _ 52, Nat.mul_assoc, Nat.mul_comm 2]
      _ ≤ 2 ^ 52 * 2 ^ droppedBits n k := Nat.mul_le_mul_left _ (Nat.pow_le_pow_right Nat.two_pos hfiner)

/-! ### Overflow -/

/-- The magnitudes from infinity on: the exponent past the last finite one, or a carry into it. -/
theorem infMag_le_keptMag_iff (n k : Nat) :
    infMag ≤ keptMag n k ↔
      2046 + k ≤ droppedBits n k ∨ (droppedBits n k = 2045 + k ∧ roundShift n (droppedBits n k) = 2 ^ 53) := by
  have := keptBits_le n k
  have := keptBits_normal n k
  unfold keptMag infMag
  omega

/-- Half a unit below 2^53 units rounds up to them, 2^53 being even. -/
theorem roundShift_eq_two_pow_iff {n sh : Nat} (h : roundShift n (sh + 1) ≤ 2 ^ 53) :
    roundShift n (sh + 1) = 2 ^ 53 ↔ (2 ^ 54 - 1) * 2 ^ sh ≤ n := by
  obtain ⟨hlow, hhigh, heven⟩ := roundShift_spec n (sh + 1)
  have hunit : 2 ^ (sh + 1) = 2 * 2 ^ sh := Nat.pow_succ' ..
  have hpos := Nat.two_pow_pos sh
  constructor
  · intro heq
    rw [heq, hunit] at hlow
    omega
  · intro hn
    by_contra hne
    obtain hlast | hless : roundShift n (sh + 1) = 2 ^ 53 - 1 ∨ roundShift n (sh + 1) < 2 ^ 53 - 1 := by omega
    · rw [hlast, hunit] at heven hhigh
      omega
    · have := mul_add_le_of_lt hless (2 ^ (sh + 1))
      omega

theorem mul_two_pow_add (c a b : Nat) : c * 2 ^ (a + b) = c * 2 ^ a * 2 ^ b := by
  rw [Nat.pow_add, Nat.mul_assoc]

/-- Half a unit past the largest finite magnitude, in units of 2^-(1074 + k). -/
def overflowPoint (k : Nat) : Nat := (2 ^ 54 - 1) * 2 ^ (2044 + k)

theorem overflowPoint_eq (k : Nat) : overflowPoint k = (2 ^ 54 - 1) * 2 ^ 2044 * 2 ^ k :=
  mul_two_pow_add (2 ^ 54 - 1) 2044 k

theorem infMag_le_keptMag_iff_overflow (n k : Nat) : infMag ≤ keptMag n k ↔ overflowPoint k ≤ n := by
  have last (hdrop : droppedBits n k = 2045 + k) :
      roundShift n (droppedBits n k) = 2 ^ 53 ↔ overflowPoint k ≤ n := by
    have hbits := keptBits_le n k
    rw [hdrop, Nat.succ_add] at hbits ⊢
    exact roundShift_eq_two_pow_iff hbits
  have hpow (j : Nat) : 2 ^ (j + (2044 + k)) = 2 ^ j * 2 ^ (2044 + k) := Nat.pow_add ..
  rw [infMag_le_keptMag_iff]
  constructor
  · rintro (hpast | ⟨hdrop, hcarry⟩)
    · refine (?_ : overflowPoint k ≤ 2 ^ (54 + (2044 + k))).trans
        ((Nat.pow_le_pow_right Nat.two_pos (by omega)).trans (two_pow_droppedBits_le (n := n) (k := k) (by omega)))
      rw [hpow]
      exact Nat.mul_le_mul_right _ (by decide)
    · exact (last hdrop).mp hcarry
  · intro hn
    have hlow : 2 ^ (53 + (2044 + k)) ≤ n := by
      rw [hpow]
      exact (Nat.mul_le_mul_right _ (by decide)).trans hn
    have hexp := (Nat.pow_lt_pow_iff_right Nat.one_lt_two).mp (hlow.trans_lt (lt_two_pow_droppedBits n k))
    obtain hpast | hdrop : 2046 + k ≤ droppedBits n k ∨ droppedBits n k = 2045 + k := by omega
    · exact .inl hpast
    · exact .inr ⟨hdrop, (last hdrop).mpr hn⟩

/-! ### The rounded magnitude -/

theorem roundUnits_eq_infMag_iff (n k : Nat) : roundUnits n k = infMag ↔ (2 ^ 54 - 1) * 2 ^ 2044 * 2 ^ k ≤ n := by
  rw [roundUnits_eq, min_eq_right_iff, infMag_le_keptMag_iff_overflow, overflowPoint_eq]

theorem roundUnits_of_lt_infMag {n k : Nat} (h : roundUnits n k < infMag) : roundUnits n k = keptMag n k := by
  rw [roundUnits_eq] at h ⊢
  omega

/-- Settles O46: where rounding does not overflow it keeps the nearest magnitude. -/
theorem roundingIsToNearestTiesToEven : Obligations.RoundingIsToNearestTiesToEven := by
  refine fun n k => ⟨roundUnits_eq_infMag_iff n k, fun hfinite m _ hm => ?_⟩
  rw [roundUnits_of_lt_infMag hfinite] at hm ⊢
  exact keptMag_nearest hm

end Sys2Proof.Machine
end

section
/-! The NUM operations (00_scope.md R9, R10): the fields and the order of the numbers, when a result is a NaN, and that
a result is the exact one rounded once. -/

namespace Sys2Proof.Machine

/-! ### The fields of a number (20_memory.md R79) -/

theorem num_ext {x y : Binary64} (hsign : numSign x = numSign y) (hmag : numMag x = numMag y) : x = y := by
  rw [← numOfParts_self x, ← numOfParts_self y, hsign, hmag]

/-- The magnitude is the exponent field and the fraction field. -/
theorem numMag_eq_fields (x : Binary64) :
    numMag x = (x.extractLsb' 52 11).toNat * 2 ^ 52 + (x.extractLsb' 0 52).toNat := by
  simp only [numMag, BitVec.extractLsb'_toNat, Nat.shiftRight_eq_div_pow]
  omega

theorem numSign_eq_getLsbD (x : Binary64) : numSign x = x.getLsbD 63 := BitVec.msb_eq_getLsbD_last x

theorem numIsFinite_iff (x : Binary64) : numIsFinite x = true ↔ numMag x < infMag := decide_eq_true_iff

theorem numIsInf_iff (x : Binary64) : numIsInf x = true ↔ numMag x = infMag := beq_iff_eq

theorem numIsNan_iff (x : Binary64) : numIsNan x = true ↔ infMag < numMag x := decide_eq_true_iff

theorem numIsNan_eq_false_iff (x : Binary64) : numIsNan x = false ↔ numMag x ≤ infMag :=
  decide_eq_false_iff_not.trans not_lt

/-- The units of a magnitude of exponent field `e` and fraction field `f`. -/
theorem magUnits_of_fields {e f : Nat} (hf : f < 2 ^ 52) :
    magUnits (e * 2 ^ 52 + f) = if e = 0 then f else (2 ^ 52 + f) * 2 ^ (e - 1) := by
  have hexp : (e * 2 ^ 52 + f) / 2 ^ 52 = e := by omega
  have hfrac : (e * 2 ^ 52 + f) % 2 ^ 52 = f := by omega
  rw [magUnits, hexp, hfrac]
  split
  case isTrue hzero => rw [hzero, Nat.zero_mul, Nat.zero_add]
  case isFalse => rfl

theorem numUnits_eq_sign_mul (x : Binary64) :
    numUnits x = (if x.getLsbD 63 = true then -1 else 1) * (magUnits (numMag x) : Int) := by
  rw [numUnits, numSign_eq_getLsbD]
  split <;> simp

theorem numUnits_natAbs (x : Binary64) : (numUnits x).natAbs = magUnits (numMag x) := by
  rw [numUnits]
  split <;> simp

/-! ### The order of the numbers -/

theorem numKey_natAbs (x : Binary64) : (numKey x).natAbs = numMag x := by
  rw [numKey]
  split <;> simp

theorem numIsFinite_iff_numKey (x : Binary64) : numIsFinite x = true ↔ (numKey x).natAbs < infMag := by
  rw [numKey_natAbs, numIsFinite_iff]

theorem numIsNan_eq_false_iff_numKey (x : Binary64) : numIsNan x = false ↔ (numKey x).natAbs ≤ infMag := by
  rw [numKey_natAbs, numIsNan_eq_false_iff]

/-- Away from 0 the place of a number determines it. -/
theorem eq_iff_numKey_eq {x y : Binary64} (hy : 0 < numMag y) : x = y ↔ numKey x = numKey y := by
  refine ⟨fun h => h ▸ rfl, fun h => ?_⟩
  have hmag : numMag x = numMag y := by rw [← numKey_natAbs x, h, numKey_natAbs]
  refine num_ext ?_ hmag
  unfold numKey at h
  cases hsx : numSign x <;> cases hsy : numSign y <;> simp only [hsx, hsy, if_true, Bool.false_eq_true, if_false] at h
  case false.true | true.false => omega
  all_goals rfl

theorem eq_minusInf_iff (x : Binary64) : x = 0xFFF0000000000000#64 ↔ numKey x = -(infMag : Int) :=
  eq_iff_numKey_eq (y := 0xFFF0000000000000#64) (by decide)

theorem eq_plusInf_iff (x : Binary64) : x = 0x7FF0000000000000#64 ↔ numKey x = (infMag : Int) :=
  eq_iff_numKey_eq (y := 0x7FF0000000000000#64) (by decide)

/-- The places of the numbers are in the order of their values. -/
theorem numUnits_lt_iff (x y : Binary64) : numUnits x < numUnits y ↔ numKey x < numKey y := by
  have hlt := magUnits_strictMono.lt_iff_lt (a := numMag x) (b := numMag y)
  have hgt := magUnits_strictMono.lt_iff_lt (a := numMag y) (b := numMag x)
  have hx := magUnits_strictMono.lt_iff_lt (a := 0) (b := numMag x)
  have hy := magUnits_strictMono.lt_iff_lt (a := 0) (b := numMag y)
  rw [magUnits_zero] at hx hy
  unfold numUnits numKey
  cases numSign x <;> cases numSign y <;> simp only [if_true, Bool.false_eq_true, if_false] <;> omega

theorem numLt_iff (x y : Binary64) :
    numLt x y = true ↔ numIsNan x = false ∧ numIsNan y = false ∧ numKey x < numKey y := by
  simp only [numLt, Bool.and_eq_true, Bool.not_eq_true', decide_eq_true_eq, and_assoc]

/-- Settles O59: the fields make up the magnitude, and the places are in the order of the values, with the infinities
at their ends. -/
theorem numbersAreOrderedByTheirValues : Obligations.NumbersAreOrderedByTheirValues := by
  refine ⟨fun x => ?fields, fun x y => ?order⟩
  case fields =>
    intro e f
    have hmag : numMag x = e * 2 ^ 52 + f := numMag_eq_fields x
    have he : e < 2 ^ 11 := BitVec.isLt _
    have hf : f < 2 ^ 52 := BitVec.isLt _
    rw [numIsFinite_iff, numIsInf_iff, numIsNan_iff, numSign_eq_getLsbD, numUnits_eq_sign_mul, hmag,
      magUnits_of_fields hf]
    have hinf : infMag = 0x7FF * 2 ^ 52 := rfl
    exact ⟨by omega, by omega, by omega, Iff.rfl, fun _ => rfl⟩
  case order =>
    rw [numLt_iff]
    refine and_congr_right fun hx => and_congr_right fun hy => ?_
    rw [numIsNan_eq_false_iff_numKey] at hx hy
    simp only [numIsFinite_iff_numKey, numUnits_lt_iff, eq_plusInf_iff, eq_minusInf_iff, ne_eq]
    omega

/-! ### When a result is a NaN -/

theorem numIsNan_freeNanOf (op : NumOp) (x y : Binary64) : numIsNan (freeNanOf op x y) = true := by
  have hfree := Nat.mod_lt (Config.freeNan op x y).toNat (Nat.two_pow_pos 51)
  have hinf : infMag = 0x7FF * 2 ^ 52 := rfl
  rw [numIsNan_iff, freeNanOf, numMag_numOfParts _ _ (by omega)]
  omega

theorem not_nan_of_inf {x : Binary64} (h : numIsInf x = true) : numIsNan x = false := by
  rw [numIsInf_iff] at h
  exact (numIsNan_eq_false_iff x).mpr h.le

theorem numIsNan_numAdd_iff (x y : Binary64) :
    numIsNan (numAdd x y) = true ↔
      numIsNan x = true ∨ numIsNan y = true ∨ (numIsInf x = true ∧ numIsInf y = true ∧ numSign x ≠ numSign y) := by
  by_cases hnan : numIsNan x = true ∨ numIsNan y = true
  · have free : numAdd x y = freeNanOf .add x y := by simp [numAdd, hnan]
    rw [free]
    exact iff_of_true (numIsNan_freeNanOf _ x y) (hnan.imp_right .inl)
  · obtain ⟨hx, hy⟩ := not_or.mp hnan
    simp only [numAdd, hx, hy, Bool.or_self, Bool.false_eq_true, if_false, false_or]
    cases hix : numIsInf x <;> cases hiy : numIsInf y
    case false.false => simp [numIsNan_addFinite]
    case false.true | true.false => simp [hx, hy]
    case true.true =>
      by_cases hsign : numSign x = numSign y <;> simp [hsign, hx, numIsNan_freeNanOf]

theorem subIsNan_iff (x y : Binary64) :
    subIsNan x y = true ↔
      numIsNan x = true ∨ numIsNan y = true ∨ (numIsInf x = true ∧ numIsInf y = true ∧ numSign x = numSign y) := by
  simp only [subIsNan, Bool.or_eq_true, Bool.and_eq_true, beq_iff_eq, or_assoc, and_assoc]

/-- A difference is a NaN in the cases that ⊖ names: the sum it is otherwise is none. -/
theorem numIsNan_numSub (x y : Binary64) : numIsNan (numSub x y) = subIsNan x y := by
  cases h : subIsNan x y with
  | true => rw [numSub_eq_freeNan h, numIsNan_freeNanOf]
  | false =>
    have valid := (subIsNan_iff x y).not.mp (Bool.not_eq_true _ ▸ h)
    rw [numSub_eq_numAdd_numNeg h, ← Bool.not_eq_true, numIsNan_numAdd_iff]
    simpa only [numIsNan_numNeg, numIsInf_numNeg, numSign_numNeg, Bool.ne_not] using valid

theorem numMul_inf {x y : Binary64} (hx : numIsNan x = false) (hy : numIsNan y = false) (hxz : numMag x ≠ 0)
    (hyz : numMag y ≠ 0) (hinf : numIsInf x = true ∨ numIsInf y = true) :
    numMul x y = numOfParts (numSign x != numSign y) infMag := by
  simp [numMul, hx, hy, hxz, hyz, hinf]

theorem numIsNan_numMul_iff (x y : Binary64) :
    numIsNan (numMul x y) = true ↔
      numIsNan x = true ∨ numIsNan y = true ∨ (numIsInf x = true ∧ numMag y = 0) ∨
        (numMag x = 0 ∧ numIsInf y = true) := by
  by_cases hnan : numIsNan x = true ∨ numIsNan y = true
  · have free : numMul x y = freeNanOf .mul x y := by simp [numMul, hnan]
    rw [free]
    exact iff_of_true (numIsNan_freeNanOf _ x y) (hnan.imp_right .inl)
  obtain ⟨hx, hy⟩ := not_or.mp hnan
  by_cases hinf : numIsInf x = true ∨ numIsInf y = true
  · by_cases hzero : numMag x = 0 ∨ numMag y = 0
    · have free : numMul x y = freeNanOf .mul x y := by simp [numMul, hx, hy, hinf, hzero]
      have zero_lt : 0 < infMag := by decide
      rw [free]
      simp only [numIsInf_iff] at hinf ⊢
      exact iff_of_true (numIsNan_freeNanOf _ x y) (.inr (.inr (by omega)))
    · obtain ⟨hxz, hyz⟩ := not_or.mp hzero
      rw [numMul_inf (eq_false_of_ne_true hx) (eq_false_of_ne_true hy) hxz hyz hinf]
      simp [hx, hy, hxz, hyz, numIsNan_numOfParts]
  · obtain ⟨hxi, hyi⟩ := not_or.mp hinf
    have finite {z : Binary64} (hnan : ¬numIsNan z = true) (hinf : ¬numIsInf z = true) : numIsFinite z = true :=
      (num_kinds z).resolve_right (not_or.mpr ⟨hinf, hnan⟩)
    rw [numMul_finite (finite hx hxi) (finite hy hyi)]
    simp [hx, hy, hxi, hyi, numIsNan_numOfParts, roundUnits_le_infMag]

/-- Settles O47. -/
theorem nanResultsAreNans : Obligations.NanResultsAreNans := fun x y =>
  ⟨(numIsNan_numAdd_iff x y).symm, (numIsNan_numSub x y ▸ subIsNan_iff x y).symm, (numIsNan_numMul_iff x y).symm⟩

/-! ### The exact result, rounded once -/

theorem roundsTo_roundUnits (neg : Bool) (n k : Nat) : roundsTo neg n k (numOfParts neg (roundUnits n k)) := by
  have hle := roundUnits_le_infMag n k
  have hlt := hle.trans_lt infMag_lt_two_pow
  obtain ⟨overflow, nearest⟩ := roundingIsToNearestTiesToEven n k
  unfold roundsTo
  rw [numMag_numOfParts neg _ hlt]
  exact ⟨numSign_numOfParts neg _ hlt, hle, overflow, nearest⟩

theorem numOfParts_zero (neg : Bool) :
    numOfParts neg 0 = if neg = true then 0x8000000000000000#64 else 0#64 := by
  cases neg <;> rfl

theorem numOfParts_infMag (neg : Bool) :
    numOfParts neg infMag = if neg = true then 0xFFF0000000000000#64 else 0x7FF0000000000000#64 := by
  cases neg <;> rfl

/-- The sum of two finite numbers: an exact zero by the signs, and any other sum rounded. -/
theorem addFinite_rounds (x y : Binary64) :
    (numUnits x + numUnits y = 0 →
      addFinite x y = if numSign x = true ∧ numSign y = true then 0x8000000000000000#64 else 0#64) ∧
    (numUnits x + numUnits y ≠ 0 →
      roundsTo (decide (numUnits x + numUnits y < 0)) (numUnits x + numUnits y).natAbs 0 (addFinite x y)) := by
  refine ⟨fun h => ?zero, fun h => ?rounded⟩
  case zero =>
    rw [addFinite_of_zero h, numOfParts_zero]
    simp only [Bool.and_eq_true]
  case rounded =>
    rw [addFinite_of_ne_zero h]
    exact roundsTo_roundUnits _ _ _

theorem numMul_rounds {x y : Binary64} (hx : numIsFinite x = true) (hy : numIsFinite y = true) :
    roundsTo (numSign x != numSign y) (numUnits x * numUnits y).natAbs 1074 (numMul x y) := by
  rw [numMul_finite hx hy, Int.natAbs_mul, numUnits_natAbs, numUnits_natAbs]
  exact roundsTo_roundUnits _ _ _

/-- Negation inverts the sign bit. -/
theorem numNeg_eq_xor (x : Binary64) : numNeg x = x ^^^ 0x8000000000000000#64 := by
  refine num_ext ?_ ?_
  · rw [numSign_numNeg, numSign, numSign, BitVec.msb_xor]
    exact (Bool.xor_true _).symm
  · rw [numMag_numNeg, numMag, numMag, BitVec.toNat_xor, Nat.xor_mod_two_pow]
    exact (Nat.xor_zero _).symm

theorem numAdd_inf_self {x : Binary64} (h : numIsInf x = true) : numAdd x x = x := by
  simp [numAdd, h, not_nan_of_inf h]

theorem numAdd_finite_inf {x y : Binary64} (hx : numIsFinite x = true) (hy : numIsInf y = true) : numAdd x y = y := by
  simp [numAdd, numIsFinite_not_nan hx, numIsFinite_not_inf hx, hy, not_nan_of_inf hy]

/-- Settles O58: each operation on finite operands rounds its exact result; the rest is by the kinds of the operands. -/
theorem arithmeticRoundsTheExactResultOnce : Obligations.ArithmeticRoundsTheExactResultOnce := by
  refine fun x y => ⟨fun hx hy => ?finite, fun hx hy hinf => ?difference, fun hx hy => ?infPlus, numAdd_finite_inf,
    fun hx hy hxz hyz hinf => ?infTimes⟩
  case finite =>
    obtain ⟨sumZero, sumRounded⟩ := addFinite_rounds x y
    obtain ⟨diffZero, diffRounded⟩ := addFinite_rounds x (numNeg y)
    rw [numUnits_numNeg, ← Int.sub_eq_add_neg] at diffZero diffRounded
    simp only [numSign_numNeg, Bool.not_eq_true'] at diffZero
    rw [numAdd_finite hx hy, numSub_finite hx hy]
    exact ⟨sumZero, sumRounded, diffZero, diffRounded, numMul_rounds hx hy⟩
  case difference =>
    have noNan : subIsNan x y = false := by
      rw [← Bool.not_eq_true, subIsNan_iff]
      simp [hx, hy, hinf]
    rw [numSub_eq_numAdd_numNeg noNan, numNeg_eq_xor]
  case infPlus =>
    obtain hfin | rfl := hy
    · exact numAdd_inf_finite hx hfin
    · exact numAdd_inf_self hx
  case infTimes =>
    rw [numMul_inf hx hy hxz hyz hinf, numOfParts_infMag]
    by_cases hsign : numSign x = numSign y <;> simp [hsign]

end Sys2Proof.Machine
end

section
/-! The alphabet's tables (41_alphabet.md): the Gray transforms on every number (R161, R162), the labels of neighbouring
indices (R176) and the PSK8 points (R169). -/

namespace Sys2Proof.Machine

/-! ### The Gray transforms -/

theorem gray_xor (a b : Nat) : gray (a ^^^ b) = gray a ^^^ gray b := by
  simp only [gray, Nat.shiftRight_xor_distrib]
  ac_rfl

/-- The loop of R162 accumulates its turns by exclusive or. -/
theorem grayFold_eq_xor (turns n s : Nat) : grayFold turns n s = n ^^^ grayFold turns 0 s := by
  induction turns generalizing n s with
  | zero => exact (Nat.xor_zero n).symm
  | succ turns ih =>
    unfold grayFold
    split
    · exact (Nat.xor_zero n).symm
    · rw [ih (n ^^^ s), ih (0 ^^^ s), Nat.zero_xor, Nat.xor_assoc]

theorem shiftRight_one_lt {s turns : Nat} (h : s < 2 ^ (turns + 1)) : s >>> 1 < 2 ^ turns := by
  rw [Nat.shiftRight_one]
  omega

/-- Run until `s` is 0, the loop undoes the transform of R161. -/
theorem gray_grayFold {turns s : Nat} (h : s < 2 ^ turns) : gray (grayFold turns 0 s) = s := by
  induction turns generalizing s with
  | zero =>
    obtain rfl : s = 0 := Nat.lt_one_iff.mp h
    rfl
  | succ turns ih =>
    unfold grayFold
    split
    case isTrue hzero => exact hzero.symm
    case isFalse =>
      rw [Nat.zero_xor, grayFold_eq_xor, gray_xor, ih (shiftRight_one_lt h), gray, Nat.xor_assoc, Nat.xor_self,
        Nat.xor_zero]

theorem gray_grayInv (n : Nat) : gray (grayInv n) = n := by
  have enough : n >>> 1 < 2 ^ n := (Nat.shiftRight_le n 1).trans_lt Nat.lt_two_pow_self
  rw [grayInv, grayFold_eq_xor, gray_xor, gray_grayFold enough, gray, Nat.xor_assoc, Nat.xor_self, Nat.xor_zero]

theorem gray_eq_zero {n : Nat} (h : gray n = 0) : n = 0 := by
  have half : n = n >>> 1 := Nat.xor_eq_zero_iff.mp h
  rw [Nat.shiftRight_one] at half
  omega

/-- The transform is linear over exclusive or, and only 0 has the transform 0. -/
theorem gray_injective : Function.Injective gray := fun a b h =>
  Nat.xor_eq_zero_iff.mp (gray_eq_zero ((gray_xor a b).trans (Nat.xor_eq_zero_iff.mpr h)))

/-- Settles O40: the loop undoes the transform, which no two numbers share. -/
theorem grayTransformsInvertEachOther : Obligations.GrayTransformsInvertEachOther := fun n =>
  ⟨gray_injective (gray_grayInv (gray n)), gray_grayInv n⟩

/-! ### The labels of neighbouring indices -/

theorem hamming_fsk8_neighbours : ∀ i < 8,
    hamming (fsk8Alphabet.indexToBits i) (fsk8Alphabet.indexToBits ((i + 1) % 8)) = if i = 3 ∨ i = 7 then 2 else 1 := by
  decide

/-- Settles O42: PSK8 labels its indices as FSK8 does. -/
theorem geometricNeighboursAreNotGrayLabelled : Obligations.GeometricNeighboursAreNotGrayLabelled := by
  intro a ha i hi
  obtain rfl | rfl := List.mem_pair.mp ha
  · exact hamming_fsk8_neighbours i hi
  · rw [psk8_indexToBits hi, psk8_indexToBits (Nat.mod_lt _ (by decide))]
    exact hamming_fsk8_neighbours i hi

/-! ### The PSK8 points -/

/-- The significand of `halfRootTwo`. -/
def halfRootTwoSignificand : Nat := 0x16A09E667F3BCD

theorem magUnits_halfRootTwo : magUnits (numMag halfRootTwo) = halfRootTwoSignificand * 2 ^ 1021 := by
  have hmag : numMag halfRootTwo = 1021 * 2 ^ 52 + halfRootTwoSignificand := by decide
  rw [hmag]
  exact magUnits_of_significand (.inr (by decide)) (by decide)

/-- Settles O44. -/
theorem psk8PointsAreTheNearest : Obligations.Psk8PointsAreTheNearest :=
  ⟨by decide, halfRootTwoSignificand, magUnits_halfRootTwo, by decide, by decide, by decide, by decide⟩

end Sys2Proof.Machine
end

section
/-! The energies and the metric: the energy vectors and their squared norm (42_modulator.md R207, R209), the loop of the
metric (43_detector.md R243), and the slicer's rule over the rationals (R248). -/

namespace Sys2Proof.Machine

/-! ### Energy vectors (R207) -/

/-- Settles O29. -/
theorem onehotComponents : Obligations.OnehotComponents := by
  refine fun m i a => ⟨onehot_length m i a, fun j hj => ?_⟩
  rw [onehot, List.getElem?_map, List.getElem?_range hj]
  rfl

/-! ### +0.0 and the exact numbers -/

/-- A finite magnitude is its own rounding. -/
theorem roundUnits_magUnits {m : Nat} (h : m < infMag) : roundUnits (magUnits m) 0 = m := by
  have kept : keptMag (magUnits m) 0 = m := by
    by_contra hne
    have nearest := keptMag_nearest (n := magUnits m) (k := 0) (m := m) (Ne.symm hne)
    simp only [NearestOrTie, Nat.pow_zero, Nat.mul_one, Nat.dist_self, Nat.not_lt_zero, false_or] at nearest
    exact hne (magUnits_strictMono.injective (Nat.eq_of_dist_eq_zero nearest.1).symm)
  rw [roundUnits_eq, kept, Nat.min_eq_left h.le]

theorem roundUnits_ne_zero {n : Nat} (h : n ≠ 0) : roundUnits n 0 ≠ 0 := by
  intro hzero
  have kept : keptMag n 0 = 0 := by
    rw [roundUnits_eq, infMag] at hzero
    omega
  have one : magUnits 1 = 1 := by decide
  have nearest := keptMag_nearest (n := n) (k := 0) (m := 1) (by omega)
  rw [NearestOrTie, kept, magUnits_zero, one] at nearest
  unfold Nat.dist at nearest
  omega

theorem numIsFinite_numZero : numIsFinite numZero = true := by decide

theorem numUnits_numZero : numUnits numZero = 0 := by decide

/-- A plus number is its magnitude. -/
theorem numOfParts_of_plus {x : Binary64} (h : PlusNumber x) : numOfParts false (numMag x) = x := by
  obtain ⟨-, hsign⟩ := h
  rw [← hsign, numOfParts_self]

theorem numMag_ne_zero_of_plus {x : Binary64} (h : PlusNumber x) (hne : x ≠ numZero) : numMag x ≠ 0 := by
  intro hzero
  rw [← numOfParts_of_plus h, hzero] at hne
  exact hne rfl

/-- A finite plus number alone in a sum is kept: its value is exact. -/
theorem addFinite_of_value {x y z : Binary64} (hz : PlusNumber z) (hfin : numIsFinite z = true)
    (hsum : numUnits x + numUnits y = numUnits z) (hsign : (numSign x && numSign y) = false) : addFinite x y = z := by
  have habs : (numUnits z).natAbs = magUnits (numMag z) := numUnits_natAbs z
  by_cases hzero : numUnits z = 0
  · rw [hzero, Int.natAbs_zero, ← magUnits_zero] at habs
    rw [addFinite_of_zero (hsum.trans hzero), hsign, magUnits_strictMono.injective habs, numOfParts_of_plus hz]
  · have nonneg : ¬ numUnits z < 0 := not_lt.mpr (numUnits_nonneg hz.2)
    rw [addFinite_of_ne_zero (hsum ▸ hzero), hsum, decide_eq_false nonneg, habs,
      roundUnits_magUnits ((numIsFinite_iff z).mp hfin), numOfParts_of_plus hz]

theorem numZero_numAdd {x : Binary64} (h : PlusNumber x) : numAdd numZero x = x := by
  obtain hfin | hinf | hnan := num_kinds x
  · rw [numAdd_finite numIsFinite_numZero hfin]
    exact addFinite_of_value h hfin (by rw [numUnits_numZero, Int.zero_add]) rfl
  · exact numAdd_finite_inf numIsFinite_numZero hinf
  · exact absurd hnan (by simp [h.1])

theorem numAdd_numZero {x : Binary64} (h : PlusNumber x) : numAdd x numZero = x := by
  obtain hfin | hinf | hnan := num_kinds x
  · rw [numAdd_finite hfin numIsFinite_numZero]
    exact addFinite_of_value h hfin (by rw [numUnits_numZero, Int.add_zero]) (Bool.and_false _)
  · exact numAdd_inf_finite hinf numIsFinite_numZero
  · exact absurd hnan (by simp [h.1])

theorem numSub_numZero {x : Binary64} (h : PlusNumber x) (hfin : numIsFinite x = true) : numSub x numZero = x := by
  rw [numSub_finite hfin numIsFinite_numZero]
  refine addFinite_of_value h hfin ?_ ?_
  · rw [numUnits_numNeg, numUnits_numZero, Int.neg_zero, Int.add_zero]
  · rw [h.2, Bool.false_and]

theorem numSub_self {x : Binary64} (h : numIsFinite x = true) : numSub x x = numZero := by
  rw [numSub_finite h h]
  refine addFinite_of_value plusNumber_numZero numIsFinite_numZero ?_ ?_
  · rw [numUnits_numNeg, Int.add_right_neg, numUnits_numZero]
  · rw [numSign_numNeg, Bool.and_not_self]

theorem roundUnits_zero (k : Nat) : roundUnits 0 k = 0 := by
  simp [roundUnits, roundShift]

theorem numMul_numZero_self : numMul numZero numZero = numZero := by
  have mag_zero : numMag numZero = 0 := by decide
  rw [numMul_finite numIsFinite_numZero numIsFinite_numZero, bne_self_eq_false, mag_zero, magUnits_zero, Nat.zero_mul,
    roundUnits_zero]
  rfl

/-! ### Sums with one term that is not +0.0 -/

theorem foldl_numAdd_single {c : Binary64} (hc : PlusNumber c) (i m : Nat) :
    ((List.range m).map fun j => if j = i then c else numZero).foldl numAdd numZero =
      if i < m then c else numZero := by
  induction m with
  | zero => rfl
  | succ m ih =>
    rw [List.range_succ, List.map_append, List.foldl_append, ih, List.map_singleton, List.foldl_cons, List.foldl_nil]
    obtain hlt | rfl | hgt := Nat.lt_trichotomy i m
    · rw [if_pos hlt, if_neg hlt.ne', if_pos (by omega), numAdd_numZero hc]
    · rw [if_neg (lt_irrefl i), if_pos rfl, if_pos i.lt_succ_self, numZero_numAdd hc]
    · rw [if_neg (by omega), if_neg hgt.ne, if_neg (by omega), numZero_numAdd plusNumber_numZero]

/-- Settles O30: the only square that is not +0.0 is the amplitude's. -/
theorem onehotEnergyIsTheAmplitudeSquared : Obligations.OnehotEnergyIsTheAmplitudeSquared := by
  intro m i a hi hfin
  have squares : ((onehot m i a).map fun x => numMul x x) =
      (List.range m).map fun j => if j = i then numMul a a else numZero := by
    rw [onehot, List.map_map]
    refine List.map_congr_left fun j _ => ?_
    by_cases hj : j = i <;> simp [hj, numMul_numZero_self]
  rw [squares, foldl_numAdd_single (plusNumber_numMul_self (numIsFinite_not_nan hfin)), if_pos hi]

/-! ### The metric as the loop of R243 -/

theorem zipWith_onehot {m : Nat} {r : Row} (hr : r.length = m) (i : Nat) (amp : Binary64) :
    List.zipWith squaredError r (onehot m i amp) =
      (List.range m).map fun j => squaredError (r.getD j numZero) (if j = i then amp else numZero) := by
  refine List.ext_getElem (by simp [hr]) fun j hj _ => ?_
  have hlt : j < r.length := by simp only [List.length_zipWith] at hj; omega
  simp [onehot, hlt]

theorem metric_eq_foldl {m : Nat} {r : Row} (hr : r.length = m) (i : Nat) (amp : Binary64) :
    metric m amp r i = ((List.range m).map fun j =>
      squaredError (r.getD j numZero) (if j = i then amp else numZero)).foldl numAdd numZero := by
  rw [metric, distance, zipWith_onehot hr]

/-- Settles O34. -/
theorem metricIsTheAscendingSum : Obligations.MetricIsTheAscendingSum := by
  refine fun m i amp r hr => ⟨?_, fun hamp hfin => plusNumber_metric m i hamp hfin⟩
  rw [metric_eq_foldl hr, List.foldl_map]
  rfl

/-! ### The slicer over the rationals (R248) -/

theorem sum_sq_sub_single (a : Rat) (f : Nat → Rat) (i n : Nat) :
    ((List.range n).map fun j => (f j - if j = i then a else 0) ^ 2).sum =
      ((List.range n).map fun j => f j ^ 2).sum + if i < n then a ^ 2 - 2 * a * f i else 0 := by
  induction n with
  | zero => simp
  | succ n ih =>
    rw [List.sum_range_succ, List.sum_range_succ, ih]
    obtain hlt | rfl | hgt := Nat.lt_trichotomy i n
    · rw [if_pos hlt, if_neg hlt.ne', if_pos (by omega)]
      ring
    · rw [if_neg (lt_irrefl i), if_pos rfl, if_pos i.lt_succ_self]
      ring
    · rw [if_neg (by omega), if_neg hgt.ne, if_neg (by omega)]
      ring

/-- Settles O37: the distances differ by the component alone, so the least one is that of a largest component. -/
theorem exactSlicerPicksTheLargestComponent : Obligations.ExactSlicerPicksTheLargestComponent := by
  intro a r ha hne d best
  have hpos : 0 < r.length := List.length_pos_of_ne_nil hne
  obtain ⟨inRange, least, lowest⟩ : LowestLeast d r.length best := leastIndex_lowestLeast hpos fun _ _ _ _ => rfl
  have distance_eq {k : Nat} (hk : k < r.length) :
      d k = ((List.range r.length).map fun j => r.getD j 0 ^ 2).sum + (a ^ 2 - 2 * a * r.getD k 0) := by
    have sum_eq := sum_sq_sub_single a (r.getD · 0) k r.length
    rwa [if_pos hk] at sum_eq
  have twice_pos : 0 < 2 * a := mul_pos two_pos ha
  refine ⟨inRange, fun k hk => ?_, fun k hk => ?_⟩
  · have hle := least k hk
    rw [distance_eq inRange, distance_eq hk] at hle
    exact le_of_mul_le_mul_left (by linarith) twice_pos
  · have hlt := lowest k hk
    rw [distance_eq inRange, distance_eq (hk.trans inRange)] at hlt
    exact lt_of_mul_lt_mul_left (by linarith) twice_pos.le

/-! ### Slicing an energy vector -/

theorem squaredError_self {x : Binary64} (h : numIsFinite x = true) : squaredError x x = numZero := by
  rw [squaredError, numSub_self h, numMul_numZero_self]

theorem distance_self {r : Row} (h : ∀ x ∈ r, numIsFinite x = true) : distance r r = numZero := by
  rw [distance, List.zipWith_self]
  induction r with
  | nil => rfl
  | cons x r ih =>
    obtain ⟨hx, hr⟩ := List.forall_mem_cons.mp h
    rw [List.map_cons, List.foldl_cons, squaredError_self hx, numZero_numAdd plusNumber_numZero]
    exact ih hr

/-- The own metric of an energy vector is +0.0. -/
theorem metric_onehot_self (m i : Nat) {amp : Binary64} (h : numIsFinite amp = true) :
    metric m amp (onehot m i amp) i = numZero :=
  distance_self (onehot_finite m i h)

theorem numAdd_inf_plus {x y : Binary64} (hinf : numIsInf x = true) (hx : PlusNumber x) (hy : PlusNumber y) :
    numAdd x y = x := by
  simp [numAdd, hinf, hx.1, hx.2, hy.1, hy.2]

/-- A sum of plus numbers is +0.0 only when both are. -/
theorem numAdd_ne_numZero {x y : Binary64} (hx : PlusNumber x) (hy : PlusNumber y) (h : x ≠ numZero ∨ y ≠ numZero) :
    numAdd x y ≠ numZero := by
  by_cases hxz : x = numZero
  · rw [hxz, numZero_numAdd hy]
    exact h.resolve_left (not_not.mpr hxz)
  obtain hxfin | hxinf | hxnan := num_kinds x
  · obtain hyfin | hyinf | hynan := num_kinds y
    · have hpos : numUnits x + numUnits y ≠ 0 := by
        have hxpos := magUnits_strictMono (Nat.pos_of_ne_zero (numMag_ne_zero_of_plus hx hxz))
        rw [magUnits_zero, ← numUnits_natAbs] at hxpos
        have := numUnits_nonneg hx.2
        have := numUnits_nonneg hy.2
        omega
      intro hsum
      have hmag := congrArg numMag hsum
      rw [numAdd_finite hxfin hyfin, addFinite_of_ne_zero hpos,
        numMag_numOfParts _ _ ((roundUnits_le_infMag _ _).trans_lt infMag_lt_two_pow)] at hmag
      exact roundUnits_ne_zero (Int.natAbs_ne_zero.mpr hpos) hmag
    · rw [numAdd_finite_inf hxfin hyinf]
      rintro rfl
      cases hyinf
    · exact absurd hynan (by simp [hy.1])
  · rwa [numAdd_inf_plus hxinf hx hy]
  · exact absurd hxnan (by simp [hx.1])

theorem foldl_numAdd_ne_numZero {ds : List Binary64} {acc : Binary64} (hacc : PlusNumber acc)
    (hds : ∀ d ∈ ds, PlusNumber d) (h : acc ≠ numZero ∨ ∃ d ∈ ds, d ≠ numZero) : ds.foldl numAdd acc ≠ numZero := by
  induction ds generalizing acc with
  | nil => exact h.resolve_right (by simp)
  | cons d ds ih =>
    obtain ⟨hd, hrest⟩ := List.forall_mem_cons.mp hds
    refine ih (plusNumber_numAdd hacc hd) hrest ?_
    rw [List.exists_mem_cons_iff, ← or_assoc] at h
    exact h.imp_left (numAdd_ne_numZero hacc hd)

theorem onehot_getD {m j : Nat} (hj : j < m) (i : Nat) (amp : Binary64) :
    (onehot m i amp).getD j numZero = if j = i then amp else numZero := by
  simp [onehot, hj]

theorem plusNumber_of_amplitudeLegal {a : Binary64} (h : amplitudeLegal a = true) :
    PlusNumber a ∧ numIsFinite a = true := by
  obtain ⟨hfin, hpos⟩ := (amplitudeLegal_iff a).mp h
  exact ⟨⟨numIsFinite_not_nan hfin, ((numLt_numZero_iff hfin).mp hpos).1⟩, hfin⟩

/-- Any other candidate's metric holds the square of the amplitude, so it is +0.0 only where that square is. -/
theorem metric_onehot_other {m i k : Nat} {amp : Binary64} (hi : i < m) (hk : k ≠ i) (hamp : amplitudeLegal amp = true)
    (hsquare : numMul amp amp ≠ numZero) : metric m amp (onehot m i amp) k ≠ numZero := by
  obtain ⟨hplus, hfin⟩ := plusNumber_of_amplitudeLegal hamp
  have component_finite (b : Prop) [Decidable b] : numIsFinite (if b then amp else numZero) = true := by
    split
    · exact hfin
    · exact numIsFinite_numZero
  rw [metric_eq_foldl (onehot_length m i amp)]
  refine foldl_numAdd_ne_numZero plusNumber_numZero (List.forall_mem_map.mpr fun j hj => ?plus) (.inr ?square)
  case plus =>
    rw [onehot_getD (List.mem_range.mp hj)]
    exact plusNumber_squaredError (component_finite _) (component_finite _)
  case square =>
    refine ⟨_, List.mem_map.mpr ⟨i, List.mem_range.mpr hi, rfl⟩, ?_⟩
    rwa [onehot_getD hi, if_pos rfl, if_neg hk.symm, squaredError, numSub_numZero hplus hfin]

theorem numLt_numZero_of_plus {x : Binary64} (h : PlusNumber x) (hne : x ≠ numZero) : numLt numZero x = true := by
  have hmag := numMag_ne_zero_of_plus h hne
  have key_zero : numKey numZero = 0 := by decide
  have hkey : 0 < numKey x := by
    rw [numKey, h.2, if_neg Bool.false_ne_true]
    omega
  rw [numLt_eq_decide_of_not_nan plusNumber_numZero.1 h.1, key_zero]
  exact decide_eq_true hkey

/-- The slicer recovers the index of an energy vector of its own amplitude (R251). -/
theorem slice_onehot {m i : Nat} {amp : Binary64} (hi : i < m) (hamp : amplitudeLegal amp = true)
    (hsquare : numMul amp amp ≠ numZero) : slice m amp (onehot m i amp) = i := by
  obtain ⟨-, hfin⟩ := plusNumber_of_amplitudeLegal hamp
  have hrow := onehot_finite m i hfin
  obtain ⟨-, least, -⟩ :=
    slicerPicksTheLowestLeastMetric m amp (onehot m i amp) (Nat.zero_lt_of_lt hi) (onehot_length m i amp) hfin hrow
  by_contra hne
  have positive := numLt_numZero_of_plus (plusNumber_metric m _ hfin hrow) (metric_onehot_other hi hne hamp hsquare)
  have not_below := least i hi
  rw [metric_onehot_self m i hfin, positive] at not_below
  cases not_below

end Sys2Proof.Machine
end

section
/-! The noiseless round trip (43_detector.md R251): FRAME, MOD, LOOP and DET, each on what the one before it wrote. -/

namespace Sys2Proof.Machine

/-! ### The groups of a frame are its bits (20_memory.md R78) -/

theorem flatten_groups (b : Nat) (xs : List Bit) (n : Nat) :
    ((List.range n).map (groupAt b xs)).flatten = xs.take (n * b) := by
  induction n with
  | zero => simp
  | succ n ih =>
    rw [List.range_succ, List.map_append, List.flatten_append, ih, List.map_singleton, List.flatten_singleton, groupAt,
      Nat.add_one_mul, List.take_add]

theorem chunks_flatten {b : Nat} {xs : List Bit} (h : xs.length % b = 0) : (chunks b xs).flatten = xs := by
  have flat : (chunks b xs).flatten = xs.take (xs.length / b * b) := flatten_groups b xs _
  rw [flat, Nat.div_mul_cancel (Nat.dvd_of_mod_eq_zero h), List.take_length]

theorem length_of_mem_chunks {b : Nat} {xs : List Bit} {g : Pattern} (h : g ∈ chunks b xs) : g.length = b := by
  obtain ⟨k, hk, rfl⟩ := List.mem_map.mp h
  exact groupAt_length (List.mem_range.mp hk)

/-! ### The indices of a frame -/

theorem bitsToIndex_lt {p : Params} (hp : paramsOk p = true) (sch : Scheme) {g : Pattern}
    (hg : g.length = (alphabet p sch).b) : (alphabet p sch).bitsToIndex g < (alphabet p sch).m := by
  cases sch with
  | fsk8 => exact gray_lt _ (patVal_lt hg)
  | psk8 => exact (psk8_bitsToIndex hg).trans_lt (gray_lt _ (patVal_lt hg))
  | qam16 =>
    obtain ⟨hpatterns, -⟩ := patterns_and_levels_of_tableOk (qam16TableOk_of_paramsOk hp)
    obtain ⟨hlen, -, -⟩ := (qam16PatternsOk_iff p.qam16Table).mp hpatterns
    obtain ⟨row, hrow, -⟩ := row_at_bitsToIndex hpatterns hg
    obtain ⟨hlt, -⟩ := List.getElem?_eq_some_iff.mp hrow
    exact hlt.trans_eq hlen

/-- The index of each group of a frame, as MOD sends them. -/
def frameIndices (a : Alphabet) (xs : List Bit) : List Nat := (chunks a.b xs).map a.bitsToIndex

section
variable {p : Params} {sch : Scheme} {xs : List Bit}

theorem frameIndices_lt (hp : paramsOk p = true) : ∀ i ∈ frameIndices (alphabet p sch) xs, i < (alphabet p sch).m :=
  List.forall_mem_map.mpr fun _ hg => bitsToIndex_lt hp sch (length_of_mem_chunks hg)

/-- The patterns of the indices are the groups again (41_alphabet.md R173). -/
theorem map_indexToBits_frameIndices (hp : paramsOk p = true) :
    (frameIndices (alphabet p sch) xs).map (alphabet p sch).indexToBits = chunks (alphabet p sch).b xs := by
  obtain ⟨-, roundTrip⟩ := alphabetsRoundTrip p sch hp
  rw [frameIndices, List.map_map]
  exact (List.map_congr_left fun g hg => roundTrip g (length_of_mem_chunks hg)).trans (List.map_id _)

end

/-- Slicing the energy vectors of the indices gives the indices. -/
theorem map_slice_onehot {m : Nat} {amp : Binary64} (hamp : amplitudeLegal amp = true)
    (hsquare : numMul amp amp ≠ numZero) {idxs : List Nat} (hidxs : ∀ i ∈ idxs, i < m) :
    (idxs.map fun i => onehot m i amp).map (slice m amp) = idxs := by
  rw [List.map_map]
  exact (List.map_congr_left fun i hi => slice_onehot (hidxs i hi) hamp hsquare).trans (List.map_id _)

/-! ### The number of symbols -/

/-- A started group counts as one. -/
theorem add_padCount_div {b : Nat} (hb : 0 < b) (len : Nat) : (len + padCount b len) / b = (len + b - 1) / b := by
  have whole := Nat.div_mul_cancel (Nat.dvd_of_mod_eq_zero (add_padCount_mod hb len))
  have hlt := padCount_lt hb len
  refine (Nat.div_eq_of_lt_le ?_ ?_).symm
  · omega
  · rw [Nat.add_one_mul]
    omega

/-! ### LOOP and DET on what MOD wrote -/

theorem exec_loop_of_room {s : State} (hne : s.txOut ≠ [])
    (room : fits s.params.maxRxRows (s.rxIn.length + s.txOut.length) = true) :
    exec .loop s = .next { s with rxIn := s.rxIn ++ s.txOut, code := 0#4 } := by
  rw [exec_loop_of_ne_nil hne, appendRxIn_of_fits room]
  rfl

/-- DET recovers the indices of energy vectors of its own amplitude. -/
theorem exec_det_of_energy_vectors {s : State} {sch : Scheme} {idxs : List Nat} (hs : s.scheme = some sch)
    (hrows : s.rxIn = idxs.map fun i => onehot (alphabet s.params sch).m i s.ampRx) (hne : idxs ≠ [])
    (hidxs : ∀ i ∈ idxs, i < (alphabet s.params sch).m)
    (hpad : s.padValid = true → s.pad.toNat < (alphabet s.params sch).b)
    (hamp : amplitudeLegal s.ampRx = true) (hsquare : numMul s.ampRx s.ampRx ≠ numZero) :
    exec .det s = .next { s with
      outBits := unpad s (idxs.map (alphabet s.params sch).indexToBits).flatten
      rxIdx := idxs
      rxSymbits := idxs.map (alphabet s.params sch).indexToBits
      rxPts := idxs.map (alphabet s.params sch).indexToPoint
      rxIn := []
      code := 0#4 } := by
  have sliced : s.rxIn.map (slice (alphabet s.params sch).m s.ampRx) = idxs :=
    hrows ▸ map_slice_onehot hamp hsquare hidxs
  have effect := exec_det_of_rows hs (by simpa [hrows] using hne) hpad
    (by rw [hrows]; exact List.forall_mem_map.mpr fun i _ => onehot_length _ i _)
    (by rw [hrows]; exact List.forall_mem_map.mpr fun i _ => onehot_finite _ i (plusNumber_of_amplitudeLegal hamp).2)
  simp only [sliced] at effect
  exact effect

/-- MOD, LOOP and DET give back a frame, but for its padding, and the indices and points sent. -/
theorem mod_loop_det {s : State} {sch : Scheme} (hp : paramsOk s.params = true) (hs : s.scheme = some sch)
    (hne : s.framed ≠ []) (hgroups : s.framed.length % (alphabet s.params sch).b = 0) (hrx : s.rxIn = [])
    (hpad : s.padValid = true → s.pad.toNat < (alphabet s.params sch).b) (hamps : s.ampRx = s.ampTx)
    (hamp : amplitudeLegal s.ampTx = true) (hsquare : numMul s.ampTx s.ampTx ≠ numZero)
    (room : fits s.params.maxRxRows (s.framed.length / (alphabet s.params sch).b) = true) :
    ∃ s2 s3 s4, exec .mod s = .next s2 ∧ exec .loop s2 = .next s3 ∧ exec .det s3 = .next s4 ∧
      s2.code = 0#4 ∧ s3.code = 0#4 ∧ s4.code = 0#4 ∧ s4.outBits = unpad s s.framed ∧
      s4.rxIdx = (chunks (alphabet s.params sch).b s.framed).map (alphabet s.params sch).bitsToIndex ∧
      s4.rxPts = s2.txPts := by
  have count : (frameIndices (alphabet s.params sch) s.framed).length =
      s.framed.length / (alphabet s.params sch).b := by
    rw [frameIndices, List.length_map, chunks_length]
  have some_group : frameIndices (alphabet s.params sch) s.framed ≠ [] := by
    rw [← List.length_pos_iff, count]
    exact Nat.div_pos (Nat.le_of_dvd (List.length_pos_of_ne_nil hne) (Nat.dvd_of_mod_eq_zero hgroups))
      (alphabet_b_pos s.params sch)
  have bits : ((frameIndices (alphabet s.params sch) s.framed).map (alphabet s.params sch).indexToBits).flatten =
      s.framed := by
    rw [map_indexToBits_frameIndices hp, chunks_flatten hgroups]
  refine ⟨_, _, _, exec_mod_of_groups hs hne hgroups, exec_loop_of_room ?sent ?room,
    exec_det_of_energy_vectors (idxs := frameIndices (alphabet s.params sch) s.framed) hs ?rows some_group
      (frameIndices_lt hp) hpad ?_ ?_, rfl, rfl, rfl, congrArg (unpad s) bits, rfl, rfl⟩
  case sent => simpa [frameIndices] using some_group
  case room => simpa [hrx] using room
  case rows => simp [hrx, hamps, frameIndices]
  all_goals simpa only [hamps]

/-- The state that FRAME answers with a scheme and an input of bits (42_modulator.md R201). -/
def framedState (sch : Scheme) (s : State) : State :=
  { s with
    framed := s.inBits.map (fun v => v == 1#8) ++
      List.replicate (padCount (alphabet s.params sch).b s.inBits.length) false
    pad := BitVec.ofNat 2 (padCount (alphabet s.params sch).b s.inBits.length)
    padValid := true
    inBits := []
    code := 0#4 }

theorem framedState_framed_length (sch : Scheme) (s : State) :
    (framedState sch s).framed.length = s.inBits.length + padCount (alphabet s.params sch).b s.inBits.length := by
  simp [framedState]

theorem framedState_pad_toNat (sch : Scheme) (s : State) :
    (framedState sch s).pad.toNat = padCount (alphabet s.params sch).b s.inBits.length :=
  padCount_toNat s.params sch s.inBits.length

/-- Removing the padding of the frame leaves the input. -/
theorem unpad_framedState (sch : Scheme) (s : State) :
    unpad (framedState sch s) (framedState sch s).framed = s.inBits.map fun v => v == 1#8 := by
  have known : (framedState sch s).padValid = true := rfl
  rw [unpad, if_pos known, framedState_framed_length, framedState_pad_toNat, Nat.add_sub_cancel]
  exact List.take_left' (List.length_map _)

/-- Settles O38: DET drops the zeros that FRAME appended. -/
theorem noiselessRoundTripRecoversTheInput : Obligations.NoiselessRoundTripRecoversTheInput := by
  intro s sch hp hs hne hbits hrx hamps hamp hsquare room
  have hb := alphabet_b_pos s.params sch
  have hlen := framedState_framed_length sch s
  have nonempty : (framedState sch s).framed ≠ [] := by
    rw [← List.length_pos_iff, hlen]
    exact Nat.add_pos_left (List.length_pos_of_ne_nil hne) _
  have whole : (framedState sch s).framed.length % (alphabet s.params sch).b = 0 :=
    hlen ▸ add_padCount_mod hb s.inBits.length
  have below : (framedState sch s).pad.toNat < (alphabet s.params sch).b :=
    framedState_pad_toNat sch s ▸ padCount_lt hb s.inBits.length
  have count : (framedState sch s).framed.length / (alphabet s.params sch).b =
      (s.inBits.length + (alphabet s.params sch).b - 1) / (alphabet s.params sch).b :=
    hlen ▸ add_padCount_div hb s.inBits.length
  obtain ⟨s2, s3, s4, hmod, hloop, hdet, hcode2, hcode3, hcode4, hout, hidx, hpts⟩ :=
    mod_loop_det (s := framedState sch s) hp hs nonempty whole hrx (fun _ => below) hamps hamp hsquare
      ((congrArg (fits s.params.maxRxRows) count).trans room)
  exact ⟨framedState sch s, s2, s3, s4, exec_frame_of_bits hs hne hbits, hmod, hloop, hdet, rfl, hcode2, hcode3, hcode4,
    hout.trans (unpad_framedState sch s), hidx, hpts⟩

end Sys2Proof.Machine
end
